-- ==== Sys2Proof/Word.lean ====
section
/-! DEFINITION. The word types of the block and the largest legal position (00_scope.md R9, R11). -/

namespace Sys2Proof

/-- A byte of STORAGE, STREAM or HEADER (20_memory.md R80). -/
abbrev Byte := BitVec 8

/-- An s16 value: a decoded sample of one channel or a history entry (10_state.md R57). -/
abbrev Half := BitVec 16

/-- A 32-bit register (00_scope.md R9: registers are 32 bits and word-accessed only). -/
abbrev Word := BitVec 32

/-- POS_MAX = 2^31 - 1, the largest legal position or length (00_scope.md R9). -/
abbrev posMax : Int := 2147483647

end Sys2Proof
end

