-- ==== Sys2Proof/Machine/Operands.lean ====
section
/-! DEFINITION. The operand forms (30_encoding.md R121) and the two packed operand words (R124). -/

namespace Sys2Proof.Machine

/-- A position, a length or a count: read as s32 (30_encoding.md R121). -/
abbrev signedArg (w : Word) : Int := w.toInt

/-- A storage offset, a stream offset or an id: read as u32 (30_encoding.md R121). -/
abbrev unsignedArg (w : Word) : Nat := w.toNat

/-- Bits [31:2] of the width word, which must be 0 (30_encoding.md R124). -/
abbrev widthReserved (w : Word) : Nat := (w.extractLsb' 2 30).toNat

/-- WC, bits [1:0] of the width word (30_encoding.md R124). -/
abbrev widthCode (w : Word) : BitVec 2 := w.extractLsb' 0 2

/-- order, bits [3:0] of the config word (30_encoding.md R124). -/
abbrev configOrder (w : Word) : BitVec 4 := w.extractLsb' 0 4

/-- predictor_count, bits [8:4] of the config word (30_encoding.md R124). -/
abbrev configPcount (w : Word) : BitVec 5 := w.extractLsb' 4 5

/-- channels, bit [9] of the config word plus 1 (30_encoding.md R124, 41_vadpcm.md R230). -/
abbrev configChannels (w : Word) : BitVec 2 := if w.getLsbD 9 then 2 else 1

/-- entropy, bit [10] of the config word (30_encoding.md R124). -/
abbrev configEntropy (w : Word) : Bool := w.getLsbD 10

/-- Bits [15:11] of the config word, which must be 0 (30_encoding.md R124). -/
abbrev configReserved (w : Word) : Nat := (w.extractLsb' 11 5).toNat

/-- The codec version, bits [31:16] of the config word (30_encoding.md R124). -/
abbrev configVersion (w : Word) : BitVec 16 := w.extractLsb' 16 16

end Sys2Proof.Machine
end

