-- ==== Sys2Proof/Config.lean ====
section
/-! DEFINITION. The parameters the spec leaves open (00_scope.md R10) and the free values.
None of the opaque constants has a body: a statement about one holds whatever it is.
SIZE_BYTES and STATE_RESERVED are INIT's operands; STREAM_LEN and HEADER_LEN are lengths of data in State. -/

namespace Sys2Proof

/-- The places where the spec computes a value that does not fit the register it is written to, or a
diagnostic word that does not fit 32 bits, and states no result (assumption 8). -/
inductive FreeSite where
  | info0 | info1 | res0 | readCursor | writePos | writeLen | newPos | rreqPos | rreqLen
  | byteCursor | bitPos | skipBase | sourceOperand
deriving DecidableEq, Repr

/-- FREE VALUE. What a register holds after a write whose exact value is outside its format: for the
place, the counter `State.freeTick` and the exact value (assumption 8, DESIGN CHOICE). -/
opaque Config.freeWord : FreeSite → Nat → Int → Word

/-- QDEPTH less one (00_scope.md R10: QDEPTH is open, at least 1; assumption 5). -/
opaque Config.queueDepthLessOne : Nat

/-- QDEPTH, the capacity of the offload job queue (00_scope.md R10, 92_eei_decisions.md D18). -/
def Config.queueDepth : Nat := Config.queueDepthLessOne + 1

/-- CODEC_VERSIONS of the instance, the set VOPEN accepts (00_scope.md R10, 92_eei_decisions.md D41): open. It is what
`State.codecVersions` holds at reset (assumption 6). -/
opaque Config.codecVersions : List (BitVec 16)

/-- STATE_LAYOUT (00_scope.md R10): the byte offset of a history lane inside the state block, for a channel and a lane.
Nothing reads it: the block never reads the state block's bytes (93_implementation_defined.md row 3). -/
opaque Config.stateLayout : Nat → Nat → Nat

/-- QERR_MAX (00_scope.md R10, 41_vadpcm.md R260). Nothing reads it: it is a property of the encoder. -/
opaque Config.quantizationErrorMax : Nat

/-- N_VOICES (00_scope.md R10, 60_exceptions.md R368; assumption 19). -/
opaque Config.voiceCount : Nat

/-- FRAC_BITS (00_scope.md R10, 41_vadpcm.md R256). -/
opaque Config.fracBits : Nat

/-- The first part of the accumulator of VADPCM_PREDICT (41_vadpcm.md R256 item 3) where some coefficient and some
sample are not 0: for the codebook rows, the order, the samples before output k, newest first (the outputs x[k-1] to
x[0], then the history), and the residuals e[k] to e[0]. The pairing, the scaling, the rounding and the clamp order, which
R256 leaves open, are all in it (assumption 7). -/
opaque Config.predictPart : List (List Int) → Nat → List Int → List Int → Int

/-- FREE VALUE. V_HIST[c][j] where it holds no value (10_state.md R76): for the counter `State.freeTick`, the channel and
the lane (assumption 3, DESIGN CHOICE). -/
opaque Config.freeHistory : Nat → Nat → Nat → BitVec 16

/-- FREE VALUE. H_TAB[k][x] where it holds no value (10_state.md R76): for the counter `State.freeTick`, the context and
the window (assumption 3, DESIGN CHOICE). -/
opaque Config.freeTableEntry : Nat → Nat → Nat → BitVec 8

end Sys2Proof
end

