-- ==== Sys2Proof/Syntax.lean ====
section
/-! DEFINITION. The commands (30_encoding.md R122), the one command format (R120) and the classes (R125). -/

namespace Sys2Proof

/-- The 18 commands of the opcode map (30_encoding.md R122). A command word carries no operand: operands
are the values of ARG0 to ARG3 at that moment (R120, R121), so no constructor has an argument. -/
inductive Instr where
  | init | close | setWidth | setSource | get | discard | flush | drain
  | append | undo | readDone | scopy
  | vopen | vseek | vstage | vjob
  | hbuild | hdecode
deriving DecidableEq, Repr

/-- Format C, the only command format (30_encoding.md R120): RSV in [31:8], OP in [7:0]. -/
structure Command where
  rsv : BitVec 24
  op  : BitVec 8
deriving DecidableEq, Repr

/-- The command classes of 30_encoding.md R122 and R125: H, S and A. -/
inductive CommandClass where
  | host | source | any
deriving DecidableEq, Repr

end Sys2Proof
end

