-- ==== Sys2Proof/WellFormed.lean ====
section
/-! DEFINITION. When a command word, a width word and a config word are well formed (30_encoding.md R120,
R123, R124). The machine raises the faults the command rules name; these predicates say the same as one check. -/

namespace Sys2Proof

/-- The OP values listed in the opcode map (30_encoding.md R122). -/
def listedOpcodes : List (BitVec 8) :=
  [0x01, 0x02, 0x03, 0x04, 0x05, 0x06, 0x07, 0x08, 0x10, 0x11, 0x12, 0x13, 0x20, 0x21, 0x22, 0x23, 0x30, 0x31]

/-- The two fields of a command word (30_encoding.md R120). -/
def Command.ofWord (w : Word) : Command := ⟨w.extractLsb' 8 24, w.extractLsb' 0 8⟩

/-- A command is well formed when RSV is 0 and OP is listed (30_encoding.md R123). -/
def Command.wellFormed (c : Command) : Bool := c.rsv == 0 && listedOpcodes.contains c.op

/-- A width word is well formed when bits [31:2] are 0 and WC is not 3 (30_encoding.md R124). -/
def wellFormedWidthWord (w : Word) : Bool := w.extractLsb' 2 30 == 0 && w.extractLsb' 0 2 != 3

/-- A VOPEN config word is well formed when [15:11] are 0, order is 1 to 8 and predictor_count is 1 to 16
(30_encoding.md R124). The version is checked against CODEC_VERSIONS by VOPEN itself. -/
def wellFormedConfigWord (w : Word) : Bool :=
  w.extractLsb' 11 5 == 0
    && (1 ≤ (w.extractLsb' 0 4).toNat && (w.extractLsb' 0 4).toNat ≤ 8)
    && (1 ≤ (w.extractLsb' 4 5).toNat && (w.extractLsb' 4 5).toNat ≤ 16)

end Sys2Proof
end

