-- ==== Sys2Proof/Decode.lean ====
section
/-! DEFINITION. Decoding a command word (30_encoding.md R123), total and rejecting by name, and the encoder. -/

namespace Sys2Proof

/-- Why a command word is illegal (30_encoding.md R126). -/
inductive DecodeError where
  /-- CMD[31:8] is not 0. -/
  | reservedBits
  /-- OP is not in the opcode map. -/
  | unlistedOpcode
deriving DecidableEq, Repr

/-- The command an OP value stands for (30_encoding.md R122). -/
def decodeOpcode (op : BitVec 8) : Option Instr :=
  match op.toNat with
  | 0x01 => some .init
  | 0x02 => some .close
  | 0x03 => some .setWidth
  | 0x04 => some .setSource
  | 0x05 => some .get
  | 0x06 => some .discard
  | 0x07 => some .flush
  | 0x08 => some .drain
  | 0x10 => some .append
  | 0x11 => some .undo
  | 0x12 => some .readDone
  | 0x13 => some .scopy
  | 0x20 => some .vopen
  | 0x21 => some .vseek
  | 0x22 => some .vstage
  | 0x23 => some .vjob
  | 0x30 => some .hbuild
  | 0x31 => some .hdecode
  | _ => none

/-- The decoder (30_encoding.md R123): RSV first, then OP. -/
def decode (w : Word) : Except DecodeError Instr :=
  if w.extractLsb' 8 24 ≠ 0 then .error .reservedBits
  else match decodeOpcode (w.extractLsb' 0 8) with
    | none => .error .unlistedOpcode
    | some i => .ok i

/-- The opcode of a command (30_encoding.md R122). -/
def opcode : Instr → BitVec 8
  | .init => 0x01
  | .close => 0x02
  | .setWidth => 0x03
  | .setSource => 0x04
  | .get => 0x05
  | .discard => 0x06
  | .flush => 0x07
  | .drain => 0x08
  | .append => 0x10
  | .undo => 0x11
  | .readDone => 0x12
  | .scopy => 0x13
  | .vopen => 0x20
  | .vseek => 0x21
  | .vstage => 0x22
  | .vjob => 0x23
  | .hbuild => 0x30
  | .hdecode => 0x31

/-- The encoder: every match is zext_32(OP) (30_encoding.md R123). -/
def encode (i : Instr) : Word := (opcode i).setWidth 32

/-- The class of a command (30_encoding.md R122). -/
def commandClass : Instr → CommandClass
  | .init | .close | .setWidth | .setSource | .get | .discard | .flush | .vopen | .hbuild => .host
  | .append | .undo | .readDone | .scopy | .vseek | .vstage | .vjob | .hdecode => .source
  | .drain => .any

/-- What the decoder reads from an instruction whose bits are `w`: one 32-bit command word, the bits above
`nbits` zero (30_encoding.md R120: every command word is 32 bits). -/
def decodeTableWord (nbits w : Nat) : Option Instr :=
  if 2 ^ 32 ≤ w % 2 ^ nbits then none
  else match decode (BitVec.ofNat 32 (w % 2 ^ nbits)) with
    | .ok i => some i
    | .error _ => none

end Sys2Proof
end

