-- ==== Sys2Proof/Machine/Bits.lean ====
section
/-! DEFINITION. The notation's primitives (00_scope.md R12): rounding, clamping, byte order, nibbles and the
bitstream view (20_memory.md R86, R88). -/

namespace Sys2Proof.Machine

/-- round_up(n, g): the least multiple of g that is at least n (00_scope.md R12). -/
def roundUp (n g : Int) : Int := (n + g - 1) / g * g

/-- round_down(n, g) = n - (n mod g) (00_scope.md R12). -/
def roundDown (n g : Int) : Int := n - n % g

/-- clamp16(v) = min(max(v, -32768), 32767) (00_scope.md R12). -/
def clamp16 (v : Int) : Int := min (max v (-32768)) 32767

/-- The value of bytes in big-endian order (20_memory.md R86). -/
def beNat (bs : List Byte) : Nat := bs.foldl (fun acc b => acc * 256 + b.toNat) 0

/-- The two bytes of an s16, high byte first (20_memory.md R87). -/
def halfBytes (x : Half) : List Byte := [x.extractLsb' 8 8, x.extractLsb' 0 8]

/-- The s16 values held by bytes, two at a time, high byte first (20_memory.md R86). -/
def halvesOf : List Byte → List Half
  | hi :: lo :: rest => BitVec.ofNat 16 (hi.toNat * 256 + lo.toNat) :: halvesOf rest
  | _ => []

/-- `k` consecutive groups of `n` entries of a list. -/
def groupsOf {α : Type} (n k : Nat) (l : List α) : List (List α) :=
  (List.range k).map fun j => (l.drop (n * j)).take n

/-- The high nibble, bits [7:4]. -/
def highNibble (b : Byte) : BitVec 4 := b.extractLsb' 4 4

/-- The low nibble, bits [3:0]. -/
def lowNibble (b : Byte) : BitVec 4 := b.extractLsb' 0 4

/-- The nibbles of bytes, high nibble first (41_vadpcm.md R250). -/
def nibblesOf : List Byte → List (BitVec 4)
  | [] => []
  | b :: rest => highNibble b :: lowNibble b :: nibblesOf rest

/-- Bytes packed from nibbles, the first of each pair high (42_huffman.md R290). -/
def packNibbles : List (BitVec 4) → List Byte
  | hi :: lo :: rest => (hi ++ lo : BitVec 8) :: packNibbles rest
  | _ => []

/-- Bit i of STREAM: bit 7 - (i mod 8) of byte i / 8, and 0 at or beyond the end (20_memory.md R88,
42_huffman.md R290). -/
def streamBit (stream : List Byte) (i : Nat) : Bool := (stream.getD (i / 8) 0).getLsbD (7 - i % 8)

/-- window(p): the 8-bit value whose bit 7 - t is stream bit p + t (42_huffman.md R290). -/
def streamWindow (stream : List Byte) (p : Nat) : Nat :=
  (List.range 8).foldl (fun acc t => 2 * acc + (streamBit stream (p + t)).toNat) 0

end Sys2Proof.Machine
end

