-- ==== Sys2Proof/Machine/Memory.lean ====
section
/-! DEFINITION. STORAGE as a list of (offset, byte) cells in rising order, an unlisted byte holding no value
(10_state.md R46), and the read-only spaces STREAM and HEADER (20_memory.md R80). -/

namespace Sys2Proof.Machine

/-- The canonical form: offsets strictly rise. No byte equals "no value", so every listing is a byte's value. -/
def Memory.wf : List Host.Cell → Bool
  | [] => true
  | [_] => true
  | c :: d :: rest => decide (c.1 < d.1) && Memory.wf (d :: rest)

/-- The value of one byte, or none where it holds no value (10_state.md R46). -/
def Memory.read : List Host.Cell → Nat → Option Byte
  | [], _ => none
  | c :: rest, a => if c.1 = a then some c.2 else Memory.read rest a

/-- One byte gets a value. -/
def Memory.write : List Host.Cell → Nat → Byte → List Host.Cell
  | [], a, b => [(a, b)]
  | c :: rest, a, b =>
    if a < c.1 then (a, b) :: c :: rest
    else if a = c.1 then (a, b) :: rest
    else c :: Memory.write rest a b

/-- Bytes [lo, hi) are made to hold no value. -/
def Memory.clear (m : List Host.Cell) (lo hi : Nat) : List Host.Cell :=
  m.filter fun c => c.1 < lo || hi ≤ c.1

/-- MemWrite(STORAGE, off, ..): consecutive bytes get values (00_scope.md R14). -/
def Memory.writeBytes : List Host.Cell → Nat → List Byte → List Host.Cell
  | m, _, [] => m
  | m, a, b :: rest => Memory.writeBytes (Memory.write m a b) (a + 1) rest

/-- The n bytes at off, or none if one of them holds no value. -/
def Memory.readBytes (m : List Host.Cell) : Nat → Nat → Option (List Byte)
  | _, 0 => some []
  | a, n + 1 =>
    match Memory.read m a, Memory.readBytes m (a + 1) n with
    | some b, some rest => some (b :: rest)
    | _, _ => none

/-- One byte is set to a value or to no value. -/
def Memory.put (m : List Host.Cell) (a : Nat) : Option Byte → List Host.Cell
  | some b => Memory.write m a b
  | none => Memory.clear m a (a + 1)

/-- Consecutive bytes are set, each to a value or to no value. -/
def Memory.putAll : List Host.Cell → Nat → List (Option Byte) → List Host.Cell
  | m, _, [] => m
  | m, a, v :: rest => Memory.putAll (Memory.put m a v) (a + 1) rest

/-- MemCopy(STORAGE, dst, src, n), as if every source byte were read first; a byte holding no value copies as
no value (00_scope.md R14, 40_sample_buffer.md R205). -/
def Memory.copy (m : List Host.Cell) (dst src n : Nat) : List Host.Cell :=
  Memory.putAll m dst ((List.range n).map fun k => Memory.read m (src + k))

/-- MemRead of a read-only space: the n bytes at off, or none if a byte read is at or beyond the end
(20_memory.md R82, R84). -/
def romRead (bytes : List Byte) (off n : Nat) : Option (List Byte) :=
  if n = 0 then some []
  else if off + n ≤ bytes.length then some ((bytes.drop off).take n)
  else none

end Sys2Proof.Machine
end

