-- ==== Sys2Proof/Machine/State.lean ====
section
/-! DEFINITION. The machine's state, as plain data (10_state.md), its fault causes, and the state after reset. -/

namespace Sys2Proof.Machine

/-- The lifecycle state (10_state.md R31). -/
inductive LifeState where
  | uninit | ready | faulted
deriving DecidableEq, Repr

/-- The fault causes (60_exceptions.md R340); `none` is code 0x00. -/
inductive Cause where
  | none | illegalCommand | notInitialised | reentrant | notInRead | badArg | notConfigured | notFlushed
  | badWidth | stateSize | capacity | misaligned | undoUnderflow | hazard | config | badPredictor
  | seekUntabulated | huffIncomplete | huffMalformed | streamIo | desync | unwritten | badReg
deriving DecidableEq, Repr

/-- A raised fault: its cause and its two diagnostic values as exact integers (00_scope.md R15). -/
structure Trap where
  cause : Cause
  info0 : Int
  info1 : Int
deriving DecidableEq, Repr

/-- The kinds of job (10_state.md R47): there is one. -/
inductive JobKind where
  | vjob
deriving DecidableEq, Repr

/-- A pending job (10_state.md R47, 41_vadpcm.md R252): the range [lo, hi) it writes, and its payload. -/
structure Job where
  kind : JobKind
  lo : Nat
  hi : Nat
  dst : Nat
  frames : Nat
  input : List Byte
deriving DecidableEq, Repr

/-- H_TAB (10_state.md R70): for each context, no value or its 256 entries. -/
structure HuffTables where
  ctx0 : Option (List Byte)
  ctx1 : Option (List Byte)
  ctx2 : Option (List Byte)
deriving DecidableEq, Repr

/-- Who answers a read request (40_sample_buffer.md R182): a source outside the model, whose commands come
from `State.inputs`; the reference sources RAW (43_source_contract.md R318) and VSRC (R322); or the
transform-coded source, which no unit implements (00_scope.md R5). -/
inductive SourceAgent where
  | external
  | raw (total : Nat)
  | vsrc
  | transform
deriving DecidableEq, Repr

/-- What the platform holds for one source id: its STREAM and HEADER bytes, whose lengths are STREAM_LEN
and HEADER_LEN (20_memory.md R82, R84), and its agent (assumption 14). -/
structure Media where
  stream : List Byte
  header : List Byte
  agent : SourceAgent
deriving DecidableEq, Repr

/-- Where a reference source stands in its answer to a read request (43_source_contract.md R318, R322). -/
inductive SourcePhase where
  | start
  | seeked
  | appended
  | copied
  | staged (off : Word)
  | issued
  | trimmed
deriving DecidableEq, Repr

/-- One move of the outside world (60_exceptions.md R346, 70_reset_and_hazards.md R397). -/
inductive Move where
  /-- A REG write of `width` bits; at offset 0x00 it issues a command (20_memory.md R95). -/
  | regWrite (offset : BitVec 8) (width : Nat) (value : Word)
  /-- A REG read of `width` bits. -/
  | regRead (offset : BitVec 8) (width : Nat)
  /-- A consumer read (20_memory.md R105). -/
  | consumerRead (off n : Nat)
  /-- The offload engine's step (20_memory.md R101). -/
  | engine
  /-- The control path's own step, where it has one: a held command goes on, a GET goes on after READ_DONE, or a
  reference source issues its next command (60_exceptions.md R346). -/
  | control
  /-- Power-on reset, by the platform (70_reset_and_hazards.md R380). -/
  | powerOn
deriving DecidableEq, Repr

/-- The checked operands of a VOPEN (41_vadpcm.md R230). -/
structure VConfig where
  order : BitVec 4
  pcount : BitVec 5
  channels : BitVec 2
  entropy : Bool
  version : BitVec 16
  length : Word
  skipBase : Nat
  skipCount : Word
deriving DecidableEq, Repr

/-- A command held on QUEUE (00_scope.md R15), with the operands it latched when it started (10_state.md R43). -/
inductive Held where
  | close
  | setSource (id ssize : Word)
  | drain
  | discard (wpos : Int)
  | append (wlen : Int)
  | vopen (cfg : VConfig)
  | vseek (offset : Int)
  | vjob (job : Job)
deriving DecidableEq, Repr

/-- Where the model stops with a fault of its own: nowhere. The block's own faults are no outcome of a step: they are
recorded in State and the machine goes on to FAULTED (60_exceptions.md R350). -/
inductive Fault where
deriving DecidableEq, Repr

/-- Where the model has no meaning to give. -/
inductive Refusal where
  /-- Raised by an arm of `exec` whose instruction has no meaning yet. Safe. -/
  | notModelled (mnemonic : String)
  /-- Raised by the source's turn when the bound source is transform-coded: 00_scope.md R5 says that a model
  refuses it by name. Safe. -/
  | transformCodedSource
deriving DecidableEq, Repr

/-- Everything the spec gives the machine (10_state.md), and the outside world's moves. -/
structure State where
  -- Lifecycle (R31, R32)
  lifeState : LifeState
  inRead : Bool
  -- Buffer configuration (R33, R34, R36)
  sizeBytes : Word
  stateReserved : Word
  wc : BitVec 2
  widthSet : Bool
  sourceId : Word
  sourceSet : Bool
  stateSize : Word
  -- Cursors (R37 to R40); nextExpected is NEW
  writePos : Word
  writeLen : Word
  readCursor : Word
  nextExpected : Word
  -- Command interface (R43)
  arg0 : Word
  arg1 : Word
  arg2 : Word
  arg3 : Word
  res0 : Word
  res1 : Word
  -- GET latches (R44)
  gWpos : Word
  gWlen : Word
  gPhase : Bool
  rreqPos : Word
  rreqLen : Word
  rreqSeek : Bool
  -- Fault registers (R45)
  faultCause : Cause
  faultInfo0 : Word
  faultInfo1 : Word
  faultOp : BitVec 8
  -- STORAGE (R46): the bytes that hold a value, by rising offset; an unlisted byte holds no value
  storage : List Host.Cell
  -- The offload job queue, oldest first (R47)
  queue : List Job
  -- VADPCM unit (R55 to R60)
  vOpen : Bool
  vOrder : BitVec 4
  vPcount : BitVec 5
  vChannels : BitVec 2
  vEntropy : Bool
  vVersion : BitVec 16
  vLength : Word
  vHist : Option (List (List Half))
  vDecPos : Word
  vByteCursor : Word
  vBitPos : Word
  vSkipBase : Word
  vSkipCount : Word
  -- Huffman unit (R70)
  hTab : HuffTables
  hBuilt : Bool
  -- Commands in progress: a GET suspended on its read (40 R182), a command held on QUEUE (00 R15)
  getSuspended : Bool
  held : Option Held
  -- The instance's CODEC_VERSIONS, which no step changes (00 R10)
  codecVersions : List (BitVec 16)
  -- The platform's sources by id (20 R80), and a reference source's place in its procedure (43 R318, R322)
  media : List (Word × Media)
  srcPhase : SourcePhase
  -- The outside world: its moves still to come, and what its last reads returned (70 R397)
  inputs : List Move
  hostWord : Option Word
  hostBytes : Option (List Byte)
  -- The counter of free values (assumption 8)
  freeTick : Nat
deriving DecidableEq, Repr

/-- The machine after power-on reset (10_state.md R76, 70_reset_and_hazards.md R380). -/
def State.reset : State where
  lifeState := .uninit
  inRead := false
  sizeBytes := 0
  stateReserved := 0
  wc := 0
  widthSet := false
  sourceId := 0
  sourceSet := false
  stateSize := 0
  writePos := 0
  writeLen := 0
  readCursor := 0
  nextExpected := 0xFFFFFFFF
  arg0 := 0
  arg1 := 0
  arg2 := 0
  arg3 := 0
  res0 := 0
  res1 := 0
  gWpos := 0
  gWlen := 0
  gPhase := false
  rreqPos := 0
  rreqLen := 0
  rreqSeek := false
  faultCause := .none
  faultInfo0 := 0
  faultInfo1 := 0
  faultOp := 0
  storage := []
  queue := []
  vOpen := false
  vOrder := 0
  vPcount := 0
  vChannels := 0
  vEntropy := false
  vVersion := 0
  vLength := 0
  vHist := none
  vDecPos := 0
  vByteCursor := 0
  vBitPos := 0
  vSkipBase := 0
  vSkipCount := 0
  hTab := ⟨none, none, none⟩
  hBuilt := false
  getSuspended := false
  held := none
  codecVersions := Config.codecVersions
  media := []
  srcPhase := .start
  inputs := []
  hostWord := none
  hostBytes := none
  freeTick := 0

end Sys2Proof.Machine
end

