-- ==== Sys2Proof/Machine/Ops.lean ====
section
/-! DEFINITION. The shared operations: derived values, narrowing to a register, raising a fault, power-on reset,
the common checks of a command, holds, the window's operations and the checked accesses to the memories. -/

namespace Sys2Proof.Machine

/-! ### Registers as numbers, and numbers to registers -/

/-- An exact value written to an s32 register; outside s32 it is a free value (assumption 8). -/
def State.fitS32 (s : State) (site : FreeSite) (v : Int) : Word :=
  if -2147483648 ≤ v ∧ v ≤ 2147483647 then BitVec.ofInt 32 v else Config.freeWord site s.freeTick v

/-- An exact value written to a u32 register; outside u32 it is a free value (assumption 8). -/
def State.fitU32 (s : State) (site : FreeSite) (v : Int) : Word :=
  if 0 ≤ v ∧ v ≤ 4294967295 then BitVec.ofInt 32 v else Config.freeWord site s.freeTick v

/-- A diagnostic value in a FAULT_INFO register, which shows u32 and s32 values alike (10_state.md R45); outside
both it is a free value (assumption 8). -/
def State.fitInfo (s : State) (site : FreeSite) (v : Int) : Word :=
  if -2147483648 ≤ v ∧ v ≤ 4294967295 then BitVec.ofInt 32 v else Config.freeWord site s.freeTick v

/-! ### Derived values (10_state.md R35) -/

/-- B = 1 << WC, the bytes per sample. -/
def State.bytesPerSample (s : State) : Nat := 2 ^ s.wc.toNat

/-- G = 8 / B, the alignment granularity in samples. -/
def State.granularity (s : State) : Nat := 8 / s.bytesPerSample

/-- CAPACITY = SIZE_BYTES / B. -/
def State.capacity (s : State) : Nat := s.sizeBytes.toNat / s.bytesPerSample

/-- SIZE_BYTES + STATE_RESERVED, the size of STORAGE (10_state.md R46). -/
def State.storageSize (s : State) : Nat := s.sizeBytes.toNat + s.stateReserved.toNat

/-- WRITE_LEN * B, the end of the resident window in STORAGE (00_scope.md R16). -/
def State.windowEnd (s : State) : Int := s.writeLen.toInt * s.bytesPerSample

/-- The flushed predicate (40_sample_buffer.md R153). -/
def State.flushed (s : State) : Bool :=
  s.writePos == 0 && s.writeLen == 0 && s.readCursor == 0 && s.nextExpected == 0xFFFFFFFF

/-- What the platform holds for the bound source; an id it does not list has no bytes and an outside agent
(assumption 14). -/
def State.boundMedia (s : State) : Media :=
  match s.media.find? (fun e => e.1 == s.sourceId) with
  | some e => e.2
  | none => ⟨[], [], .external⟩

/-- STREAM of the bound source (20_memory.md R82). -/
def State.stream (s : State) : List Byte := s.boundMedia.stream

/-- HEADER of the bound source (20_memory.md R84). -/
def State.header (s : State) : List Byte := s.boundMedia.header

/-- The 8-bit code of a cause (60_exceptions.md R340). -/
def causeCode : Cause → BitVec 8
  | .none => 0x00
  | .illegalCommand => 0x01
  | .notInitialised => 0x02
  | .reentrant => 0x03
  | .notInRead => 0x04
  | .badArg => 0x05
  | .notConfigured => 0x06
  | .notFlushed => 0x07
  | .badWidth => 0x08
  | .stateSize => 0x09
  | .capacity => 0x0A
  | .misaligned => 0x0B
  | .undoUnderflow => 0x0C
  | .hazard => 0x0D
  | .config => 0x0E
  | .badPredictor => 0x0F
  | .seekUntabulated => 0x10
  | .huffIncomplete => 0x11
  | .huffMalformed => 0x12
  | .streamIo => 0x13
  | .desync => 0x14
  | .unwritten => 0x15
  | .badReg => 0x16

/-- The LS field of STATUS (30_encoding.md R127). -/
def lifeCode : LifeState → BitVec 2
  | .uninit => 0
  | .ready => 1
  | .faulted => 2

/-! ### Taking a fault, and power-on reset -/

/-- Fault entry (60_exceptions.md R350): the cause, the two diagnostic values and the op are recorded, LS
becomes FAULTED, and the control path's command ends, a suspended GET included. Every other register keeps its
value, IN_READ and QUEUE among them. -/
def State.raise (s : State) (op : BitVec 8) (t : Trap) : State :=
  { s with
    faultCause := t.cause
    faultInfo0 := s.fitInfo .info0 t.info0
    faultInfo1 := s.fitInfo .info1 t.info1
    faultOp := op
    lifeState := .faulted
    held := none
    getSuspended := false }

/-- Every register at its power-on value (10_state.md R76, R78, 70_reset_and_hazards.md R380). What is outside
the block stays: the instance's CODEC_VERSIONS, the platform's sources, the outside world's moves, what it has read, and the free-value counter.
There is no other return from a fault (60_exceptions.md R352, R354). -/
def State.powerOn (s : State) : State :=
  { State.reset with
    codecVersions := s.codecVersions
    media := s.media
    inputs := s.inputs
    hostWord := s.hostWord
    hostBytes := s.hostBytes
    freeTick := s.freeTick }

/-! ### How a command's own part ends -/

/-- How a command's own part ends: it completes or is held (the state says which), or it raises a fault in the
state its effects so far have left (60_exceptions.md R345: its effects up to the fault remain). -/
inductive Exit where
  | done (s : State)
  | trap (s : State) (t : Trap)
deriving DecidableEq, Repr

/-- What a step answers. -/
abbrev Result := Host.Outcome State Fault Refusal

/-- A command that ends so answers this, `op` being recorded with its fault (60_exceptions.md R350). -/
def Exit.close (op : BitVec 8) : Exit → Result
  | .done s => .next s
  | .trap s t => .next (s.raise op t)

/-- One part of a command after another. -/
def Exit.andThen : Exit → (State → Exit) → Exit
  | .done s, k => k s
  | .trap s t, _ => .trap s t

/-- The common checks of a decoded command word, then the command's own part (60_exceptions.md R345): FAULTED
(check 1), UNINIT (check 3) and the class (check 4, 30_encoding.md R125). The decoder makes check 2. -/
def issue (i : Instr) (body : State → Exit) (s : State) : Result :=
  if s.lifeState = .faulted then .next s
  else if s.lifeState = .uninit ∧ i ≠ .init then .next (s.raise (opcode i) ⟨.notInitialised, (opcode i).toNat, 0⟩)
  else match commandClass i, s.inRead with
    | .host, true => .next (s.raise (opcode i) ⟨.reentrant, (opcode i).toNat, 0⟩)
    | .source, false => .next (s.raise (opcode i) ⟨.notInRead, (opcode i).toNat, 0⟩)
    | _, _ => (body s).close (opcode i)

/-! ### Holds (00_scope.md R15) -/

/-- `hold until c`: the rest of the command runs at once where c is true, and else the command is held with the
operands it latched. -/
def State.holdUntil (s : State) (ready : Bool) (h : Held) (rest : State → Exit) : Exit :=
  if ready then rest s else .done { s with held := some h }

/-- drain()'s condition: QUEUE is empty (20_memory.md R101). -/
def State.drained (s : State) : Bool := s.queue.isEmpty

/-- The condition of `issue Job`: QUEUE holds fewer than QDEPTH jobs (00_scope.md R15, 41_vadpcm.md R252). -/
def State.queueHasRoom (s : State) : Bool := decide (s.queue.length < Config.queueDepth)

/-! ### Checked accesses -/

/-- Whether two ranges share a byte. -/
def rangesOverlap (lo1 hi1 lo2 hi2 : Nat) : Bool := decide (max lo1 lo2 < min hi1 hi2)

/-- The hazard check of an access to [lo, hi) (20_memory.md R104): the start of the oldest pending job whose range
overlaps it (assumption 10). -/
def State.hazardAt (s : State) (lo hi : Nat) : Option Nat :=
  (s.queue.find? fun j => rangesOverlap j.lo j.hi lo hi).map Job.lo

/-- MemRead(STREAM, off, n) (20_memory.md R82). -/
def State.readStream (s : State) (off n : Nat) : Except Trap (List Byte) :=
  match romRead s.stream off n with
  | some bs => .ok bs
  | none => .error ⟨.streamIo, off, s.stream.length⟩

/-- MemRead(HEADER, off, n) (20_memory.md R84). -/
def State.readHeader (s : State) (off n : Nat) : Except Trap (List Byte) :=
  match romRead s.header off n with
  | some bs => .ok bs
  | none => .error ⟨.config, off, s.header.length⟩

/-- MemWrite(STORAGE, off, ..) inside STORAGE's bounds (20_memory.md R81). The commands check their own tighter
bounds and the hazard first. -/
def State.storeBytes (s : State) (off : Nat) (bs : List Byte) : Exit :=
  if bs ≠ [] ∧ s.storageSize < off + bs.length then .trap s ⟨.badArg, off, s.storageSize⟩
  else .done { s with storage := Memory.writeBytes s.storage off bs }

/-- STORAGE bytes [lo, hi) <- no value; not a checked access (20_memory.md R104). -/
def State.clearBytes (s : State) (lo hi : Nat) : State :=
  { s with storage := Memory.clear s.storage lo hi }

/-! ### The window -/

/-- The cursors at their flush values (40_sample_buffer.md R180, R210). -/
def State.flushCursors (s : State) : State :=
  { s with writePos := 0, writeLen := 0, readCursor := 0, nextExpected := 0xFFFFFFFF }

/-- request Read(pos, len, seeking) (40_sample_buffer.md R182): the request is published and the GET is suspended. -/
def State.requestRead (s : State) (pos len : Int) (seeking : Bool) : State :=
  { s with
    rreqPos := s.fitS32 .rreqPos pos
    rreqLen := s.fitS32 .rreqLen len
    rreqSeek := seeking
    inRead := true
    getSuspended := true
    srcPhase := .start }

/-- How many samples discard_window(p) drops (40_sample_buffer.md R205): p - WRITE_POS, at most WRITE_LEN, even
where B = 1; 0 where there is nothing to drop. -/
def State.discardCount (s : State) (p : Int) : Nat :=
  if p - s.writePos.toInt ≤ 0 then 0
  else if s.bytesPerSample = 1 then (roundDown (min (p - s.writePos.toInt) s.writeLen.toInt) 2).toNat
  else (min (p - s.writePos.toInt) s.writeLen.toInt).toNat

/-- discard_window after its drain (40_sample_buffer.md R205): the retained samples are copied down to offset 0,
the vacated bytes hold no value, and the cursors move. -/
def State.dropSamples (s : State) (idx : Nat) : State :=
  let b := s.bytesPerSample
  let oldLen := s.writeLen.toInt.toNat
  let n := oldLen - idx
  { s with
    storage := Memory.clear (Memory.copy s.storage 0 (idx * b) (n * b)) (n * b) (oldLen * b)
    writePos := s.fitS32 .writePos (s.writePos.toInt + idx)
    writeLen := BitVec.ofNat 32 n
    readCursor := BitVec.ofInt 32 (max (s.readCursor.toInt - idx) 0) }

/-- discard_window(p) (40_sample_buffer.md R205), `h` being the command that is held where it must drain. -/
def State.discardWindow (s : State) (p : Int) (h : Held) (rest : State → Exit) : Exit :=
  if s.discardCount p = 0 then rest s
  else s.holdUntil s.drained h fun s => rest (s.dropSamples (s.discardCount p))

end Sys2Proof.Machine
end

