-- ==== Sys2Proof/Machine/Huffman.lean ====
section
/-! DEFINITION. The Huffman unit: HBUILD and HDECODE (42_huffman.md). -/

namespace Sys2Proof.Machine

/-- CB_END = V_PCOUNT * V_ORDER * 16, the codebook's end in HEADER (10_state.md R62). -/
def State.codebookEnd (s : State) : Nat := s.vPcount.toNat * s.vOrder.toNat * 16

/-! ### HBUILD -/

/-- Entries [lo, hi) of a table are filled with `v`, or none where one of them is filled already
(42_huffman.md R280; 0 is unfilled, 10_state.md R71). -/
def fillEntries (t : List Byte) (lo hi : Nat) (v : Byte) : Option (List Byte) :=
  if ((t.drop lo).take (hi - lo)).any (· != 0) then none
  else some (t.take lo ++ List.replicate (hi - lo) v ++ t.drop hi)

/-- len[sym] of context `k`, whose 24 bytes start at `base`: the high nibble for an even symbol (42_huffman.md R280). -/
def symbolLength (s : State) (base sym : Nat) : Except Trap Nat :=
  match s.readHeader (base + sym / 2) 1 with
  | .error t => .error t
  | .ok bs =>
    let pair := bs.getD 0 0
    .ok (if sym % 2 = 0 then highNibble pair else lowNibble pair).toNat

/-- code[sym] of the context whose 24 bytes start at `base` (42_huffman.md R280). -/
def symbolCode (s : State) (base sym : Nat) : Except Trap Nat :=
  match s.readHeader (base + 8 + sym) 1 with
  | .error t => .error t
  | .ok bs => .ok (bs.getD 0 0).toNat

/-- The table with the entries of one present symbol filled, after its three checks (42_huffman.md R280, R282). -/
def placeCode (k sym len code : Nat) (t : List Byte) : Except Trap (List Byte) :=
  if 8 < len then .error ⟨.huffMalformed, (k * 256 + sym : Nat), 0⟩
  else if 2 ^ len ≤ code then .error ⟨.huffMalformed, (k * 256 + sym : Nat), 1⟩
  else match fillEntries t (code * 2 ^ (8 - len)) ((code + 1) * 2 ^ (8 - len)) (BitVec.ofNat 8 (sym * 16 + len)) with
    | none => .error ⟨.huffMalformed, (k * 256 + sym : Nat), 2⟩
    | some t' => .ok t'

/-- HBUILD's work on one symbol of context `k`; a length of 0 means no code (42_huffman.md R280). -/
def buildSymbol (s : State) (k base sym : Nat) (t : List Byte) : Except Trap (List Byte) :=
  match symbolLength s base sym with
  | .error e => .error e
  | .ok len =>
    if len = 0 then .ok t
    else match symbolCode s base sym with
      | .error e => .error e
      | .ok code => placeCode k sym len code t

/-- The symbols of one context, in order (42_huffman.md R280). -/
def buildSymbols (s : State) (k base : Nat) : List Nat → List Byte → Except Trap (List Byte)
  | [], t => .ok t
  | sym :: rest, t =>
    match buildSymbol s k base sym t with
    | .error e => .error e
    | .ok t' => buildSymbols s k base rest t'

/-- The least unfilled entry of a table (42_huffman.md R280). -/
def firstUnfilled (t : List Byte) : Option Nat := t.findIdx? (· == 0)

/-- One context's table, or the first check that fails (42_huffman.md R280, R282, R284). -/
def buildContext (s : State) (k : Nat) : Except Trap (List Byte) :=
  match buildSymbols s k (s.codebookEnd + 24 * k) (List.range 16) (List.replicate 256 0) with
  | .error e => .error e
  | .ok t => match firstUnfilled t with
    | some x => .error ⟨.huffIncomplete, k, x⟩
    | none => .ok t

/-- H_TAB[k] <- t (42_huffman.md R280). -/
def HuffTables.put (h : HuffTables) (k : Nat) (t : List Byte) : HuffTables :=
  match k with
  | 0 => { h with ctx0 := some t }
  | 1 => { h with ctx1 := some t }
  | _ => { h with ctx2 := some t }

/-- H_TAB[k] (10_state.md R70). -/
def HuffTables.context (h : HuffTables) (k : Nat) : Option (List Byte) :=
  match k with
  | 0 => h.ctx0
  | 1 => h.ctx1
  | _ => h.ctx2

/-- The contexts, in order; each built table is stored before the next is begun (42_huffman.md R280). -/
def buildContexts : List Nat → State → Exit
  | [], s => .done s
  | k :: rest, s =>
    match buildContext s k with
    | .error e => .trap s e
    | .ok t => buildContexts rest { s with hTab := s.hTab.put k t }

/-- HBUILD's own part (42_huffman.md R280). "A fault leaves H_BUILT = 0": the bit is cleared first and set at the end
(assumption 28, DEDUCED). -/
def hbuildBody (s : State) : Exit :=
  let cleared : State := { s with hBuilt := false }
  if s.vOpen = false then .trap cleared ⟨.notConfigured, 2, 0⟩
  else if s.vEntropy = false then .trap cleared ⟨.config, 0, 1⟩
  else (buildContexts [0, 1, 2] cleared).andThen fun s => .done { s with hBuilt := true }

/-- HBUILD: build the three lookup tables (42_huffman.md R280). -/
def execHbuild (s : State) : Result := issue .hbuild hbuildBody s

/-! ### HDECODE -/

/-- The contexts of a block's 18 symbols: 0, 1, then 2 for each residual (42_huffman.md R290). -/
def blockContexts : List Nat := 0 :: 1 :: List.replicate 16 2

/-- The entry H_TAB[k][x] a lookup reads (42_huffman.md R290); where it holds no value, which no run from reset reaches,
a free value (10_state.md R76, assumption 3). -/
def State.tableEntry (s : State) (k x : Nat) : Byte :=
  match (s.hTab.context k).bind (·[x]?) with
  | some entry => entry
  | none => Config.freeTableEntry s.freeTick k x

/-- The symbols read with the given contexts from stream bit `p`, and the bit after them (42_huffman.md R290). -/
def decodeSymbols (s : State) : List Nat → Nat → Except Trap (List (BitVec 4) × Nat)
  | [], p => .ok ([], p)
  | k :: rest, p =>
    let ent := s.tableEntry k (streamWindow s.stream p)
    let len := (lowNibble ent).toNat
    if 8 * s.stream.length < p + len then .error ⟨.streamIo, p, 8 * s.stream.length⟩
    else match decodeSymbols s rest (p + len) with
      | .error e => .error e
      | .ok (syms, q) => .ok (highNibble ent :: syms, q)

/-- hdecode_block(dst), also called by VSTAGE (42_huffman.md R290): every symbol is decoded before anything is
written. -/
def hdecodeBlock (dst : Nat) (s : State) : Exit :=
  if s.vOpen = false then .trap s ⟨.notConfigured, 2, 0⟩
  else if s.vEntropy = false then .trap s ⟨.config, 0, 1⟩
  else if s.hBuilt = false then .trap s ⟨.notConfigured, 3, 0⟩
  else if s.windowEnd < dst + 9 then .trap s ⟨.badArg, dst, 9⟩
  else match s.hazardAt dst (dst + 9) with
    | some lo => .trap s ⟨.hazard, dst, lo⟩
    | none => match decodeSymbols s blockContexts s.vBitPos.toNat with
      | .error e => .trap s e
      | .ok (syms, p) => (s.storeBytes dst (packNibbles syms)).andThen fun t =>
          .done { t with vBitPos := s.fitU32 .bitPos p }

/-- HDECODE's own part (42_huffman.md R290). -/
def hdecodeBody (s : State) : Exit := hdecodeBlock (unsignedArg s.arg0) s

/-- HDECODE: unpack one 9-byte block of 18 symbols into STORAGE (42_huffman.md R290). -/
def execHdecode (s : State) : Result := issue .hdecode hdecodeBody s

end Sys2Proof.Machine
end

