-- ==== Sys2Proof/Machine/Predict.lean ====
section
/-! DEFINITION. The prediction arithmetic (41_vadpcm.md R256), the reference instance REF (R258) and decode_frame
(R250) over one frame of one channel. -/

namespace Sys2Proof.Machine

/-- One instance of VADPCM_PREDICT (41_vadpcm.md R256): FRAC_BITS, and the first part of the accumulator for the
codebook rows, the order, the samples before output k, newest first, and the residuals e[k] to e[0]. -/
structure Predictor where
  fracBits : Nat
  part : List (List Int) → Nat → List Int → List Int → Int

/-- The block's own instance: nothing is known of its two parts (assumption 7). -/
def ownPredictor : Predictor := ⟨Config.fracBits, Config.predictPart⟩

/-- REF's dot product, from look-back i on: row i - 1, lane k mod 8, for the look-backs up to the order
(41_vadpcm.md R258). -/
def refDot (coef : List (List Int)) (order k : Nat) : Nat → List Int → Int
  | _, [] => 0
  | i, x :: older =>
    (if i ≤ order then (coef.getD (i - 1) []).getD (k % 8) 0 * x else 0) + refDot coef order k (i + 1) older

/-- REF (41_vadpcm.md R258), for test vectors only: FRAC_BITS = 11, and no rounding term. -/
def refPredictor : Predictor := ⟨11, fun coef order past es => refDot coef order (es.length - 1) 1 past⟩

/-- The first part of A_k, the dot product of the selected predictor's rows against the samples before output k
(41_vadpcm.md R256 item 3): 0 where every coefficient or every sample is 0, and else what the instance says
(assumption 7). -/
def dotPart (P : Predictor) (coef : List (List Int)) (order : Nat) (past es : List Int) : Int :=
  if coef.all (·.all (· == 0)) || past.all (· == 0) then 0 else P.part coef order past es

/-- Output k from the samples before it and the residuals up to its own, `e`: the accumulator A_k, the residual in its
fixed-point scale being its second part, shifted and clamped (41_vadpcm.md R256 items 2 and 3). -/
def predictSample (P : Predictor) (coef : List (List Int)) (order : Nat) (past earlier : List Int) (e : Int) : Int :=
  clamp16 ((dotPart P coef order past (e :: earlier) + e * 2 ^ P.fracBits) / 2 ^ P.fracBits)

/-- The outputs that follow `past`, the residuals before them being `earlier`, newest first (41_vadpcm.md R256 item 1). -/
def predictFrom (P : Predictor) (coef : List (List Int)) (order : Nat) : List Int → List Int → List Int → List Int
  | _, _, [] => []
  | past, earlier, e :: rest =>
    let x := predictSample P coef order past earlier e
    x :: predictFrom P coef order (x :: past) (e :: earlier) rest

/-- VADPCM_PREDICT(coef, h, e) (41_vadpcm.md R256); the history's last entry is its newest sample (10_state.md R57). -/
def predict (P : Predictor) (coef : List (List Int)) (order : Nat) (hist e : List Int) : List Int :=
  predictFrom P coef order hist.reverse [] e

/-- The scale of a frame, the control byte's high nibble (41_vadpcm.md R250). -/
def frameScale (frame : List Byte) : Nat := (highNibble (frame.getD 0 0)).toNat

/-- The predictor index of a frame, the control byte's low nibble (41_vadpcm.md R250). -/
def framePredictor (frame : List Byte) : Nat := (lowNibble (frame.getD 0 0)).toNat

/-- The 16 scaled residuals of a frame (41_vadpcm.md R250). -/
def frameResiduals (frame : List Byte) : List Int :=
  (nibblesOf ((frame.drop 1).take 8)).map fun r => r.toInt * 2 ^ frameScale frame

/-- The outputs of one frame of one channel, given the selected codebook rows (41_vadpcm.md R250). -/
def frameSamples (P : Predictor) (coef : List (List Int)) (order : Nat) (hist : List Half) (frame : List Byte) :
    List Half :=
  (predict P coef order (hist.map BitVec.toInt) (frameResiduals frame)).map (BitVec.ofInt 16)

/-- The history after a frame: its last `order` outputs (41_vadpcm.md R250). -/
def nextHistory (order : Nat) (samples : List Half) : List Half := (samples.drop (16 - order)).take order

end Sys2Proof.Machine
end

