-- ==== Sys2Proof/Machine/Vadpcm.lean ====
section
/-! DEFINITION. The VADPCM commands VOPEN, VSEEK, VSTAGE and VJOB (41_vadpcm.md). -/

namespace Sys2Proof.Machine

/-! ### VOPEN -/

/-- Zero history for every channel (41_vadpcm.md R230, R240). -/
def zeroHistory (channels order : Nat) : List (List Half) := List.replicate channels (List.replicate order 0)

/-- The size of a skip table entry, 8 + round_up(2 * ch * order, 4) (41_vadpcm.md R238). -/
def skipEntrySize (channels order : Nat) : Nat := 8 + (roundUp (2 * channels * order : Nat) 4).toNat

/-- The codec-declared state block size, 16 * order * ch + 16 (41_vadpcm.md R230). -/
def stateBlockSize (channels order : Nat) : Nat := 16 * order * channels + 16

/-- VOPEN's checks of its fields (41_vadpcm.md R230, the first five). -/
def vopenFieldTrap (s : State) : Option Trap :=
  let cfg := s.arg0
  let order := (configOrder cfg).toNat
  let pc := (configPcount cfg).toNat
  let length := signedArg s.arg1
  if configReserved cfg ≠ 0 then some ⟨.config, unsignedArg cfg, 0⟩
  else if order < 1 ∨ 8 < order then some ⟨.config, order, 8⟩
  else if pc < 1 ∨ 16 < pc then some ⟨.config, pc, 16⟩
  else if configVersion cfg ∉ s.codecVersions then some ⟨.config, (configVersion cfg).toNat, 0⟩
  else if length < 0 then some ⟨.badArg, length, 1⟩
  else none

/-- VOPEN's checks of the block's state (41_vadpcm.md R230, the next five). -/
def vopenStateTrap (s : State) : Option Trap :=
  let ch := (configChannels s.arg0).toNat
  let need := stateBlockSize ch (configOrder s.arg0).toNat
  if s.widthSet = false then some ⟨.notConfigured, 0, 0⟩
  else if s.sourceSet = false then some ⟨.notConfigured, 1, 0⟩
  else if ¬ s.flushed then some ⟨.notFlushed, s.writeLen.toInt, s.nextExpected.toInt⟩
  else if s.wc.toNat ≠ ch then some ⟨.config, s.wc.toNat, ch⟩
  else if s.stateSize.toNat ≠ need then some ⟨.stateSize, s.stateSize.toNat, need⟩
  else none

/-- VOPEN's reading of HEADER (41_vadpcm.md R230): the bounds of the codebook, the entropy contexts and the skip
table, and the operands it then latches. -/
def vopenHeader (s : State) : Except Trap VConfig :=
  let cfg := s.arg0
  let order := (configOrder cfg).toNat
  let ch := (configChannels cfg).toNat
  let len := s.header.length
  let cbEnd := (configPcount cfg).toNat * order * 16
  let sb := cbEnd + unsignedArg s.arg2
  if len < cbEnd then .error ⟨.config, cbEnd, len⟩
  else if configEntropy cfg ∧ len < cbEnd + 72 then .error ⟨.config, (cbEnd + 72 : Nat), len⟩
  else match s.readHeader sb 4 with
    | .error t => .error t
    | .ok bs =>
      let tableEnd := sb + 4 + beNat bs * skipEntrySize ch order
      if len < tableEnd then .error ⟨.config, tableEnd, len⟩
      else .ok {
        order := configOrder cfg
        pcount := configPcount cfg
        channels := configChannels cfg
        entropy := configEntropy cfg
        version := configVersion cfg
        length := s.arg1
        skipBase := sb
        skipCount := BitVec.ofNat 32 (beNat bs) }

/-- VOPEN after its drain (41_vadpcm.md R230). -/
def vopenFinish (c : VConfig) (s : State) : Exit :=
  .done { s with
    vOrder := c.order
    vPcount := c.pcount
    vChannels := c.channels
    vEntropy := c.entropy
    vVersion := c.version
    vLength := c.length
    vSkipBase := s.fitU32 .skipBase c.skipBase
    vSkipCount := c.skipCount
    vHist := some (zeroHistory c.channels.toNat c.order.toNat)
    vDecPos := 0
    vByteCursor := 0
    vBitPos := 0
    hBuilt := false
    vOpen := true }

/-- VOPEN's own part (41_vadpcm.md R230). -/
def vopenBody (s : State) : Exit :=
  match vopenFieldTrap s with
  | some t => .trap s t
  | none => match vopenStateTrap s with
    | some t => .trap s t
    | none => match vopenHeader s with
      | .error t => .trap s t
      | .ok c => s.holdUntil s.drained (.vopen c) (vopenFinish c)

/-- VOPEN: open a VADPCM source (41_vadpcm.md R230). -/
def execVopen (s : State) : Result := issue .vopen vopenBody s

/-! ### VSEEK -/

/-- The HEADER offset of skip table entry e (41_vadpcm.md R238). -/
def State.skipEntryAt (s : State) (e : Nat) : Nat :=
  s.vSkipBase.toNat + 4 + e * skipEntrySize s.vChannels.toNat s.vOrder.toNat

/-- The least of the `remaining` entries from e on whose offset matches (41_vadpcm.md R238, R240). -/
def findSkipEntry (s : State) (target : Nat) : Nat → Nat → Except Trap (Option Nat)
  | 0, _ => .ok none
  | remaining + 1, e =>
    match s.readHeader (s.skipEntryAt e) 4 with
    | .error t => .error t
    | .ok bs => if beNat bs = target then .ok (some e) else findSkipEntry s target remaining (e + 1)

/-- V_HIST, V_BIT_POS and the cursors from skip table entry e (41_vadpcm.md R240). -/
def restoreSkipEntry (offset : Int) (e : Nat) (s : State) : Exit :=
  let a := s.skipEntryAt e
  let ch := s.vChannels.toNat
  let order := s.vOrder.toNat
  match s.readHeader (a + 4) 4, s.readHeader (a + 8) (2 * ch * order) with
  | .error t, _ => .trap s t
  | _, .error t => .trap s t
  | .ok bitpos, .ok hist => .done { s with
      vHist := some (groupsOf order ch (halvesOf hist))
      vBitPos := BitVec.ofNat 32 (beNat bitpos)
      vDecPos := BitVec.ofInt 32 offset
      vByteCursor := s.fitU32 .byteCursor (offset / 16 * 9 * ch) }

/-- VSEEK after its drain (41_vadpcm.md R240): the zero-point reset, or the skip table. -/
def vseekFinish (offset : Int) (s : State) : Exit :=
  if offset = 0 then .done { s with
    vHist := some (zeroHistory s.vChannels.toNat s.vOrder.toNat)
    vByteCursor := 0
    vBitPos := 0
    vDecPos := 0 }
  else match findSkipEntry s offset.toNat s.vSkipCount.toNat 0 with
    | .error t => .trap s t
    | .ok none => .trap s ⟨.seekUntabulated, offset, s.vSkipCount.toNat⟩
    | .ok (some e) =>
      if offset % 16 ≠ 0 then .trap s ⟨.config, offset, 16⟩ else restoreSkipEntry offset e s

/-- VSEEK's own part (41_vadpcm.md R240). -/
def vseekBody (s : State) : Exit :=
  let offset := signedArg s.arg0
  if offset < 0 then .trap s ⟨.badArg, offset, 0⟩
  else if s.vOpen = false then .trap s ⟨.notConfigured, 2, 0⟩
  else s.holdUntil s.drained (.vseek offset) (vseekFinish offset)

/-- VSEEK: seek to an absolute sample offset (41_vadpcm.md R240). -/
def execVseek (s : State) : Result := issue .vseek vseekBody s

/-! ### VSTAGE -/

/-- The blocks from number b on, `n` of them, unpacked to 9-byte frames (41_vadpcm.md R245, V_ENTROPY = 1). -/
def stageBlocks (dst : Nat) : Nat → Nat → State → Exit
  | 0, _, s => .done s
  | n + 1, b, s => (hdecodeBlock (dst + 9 * b) s).andThen (stageBlocks dst n (b + 1))

/-- Compressed bytes copied from the stream (41_vadpcm.md R245, V_ENTROPY = 0). -/
def stageRaw (dst nb : Nat) (s : State) : Exit :=
  match s.hazardAt dst (dst + nb) with
  | some lo => .trap s ⟨.hazard, dst, lo⟩
  | none => match s.readStream s.vByteCursor.toNat nb with
    | .error t => .trap s t
    | .ok bs => s.storeBytes dst bs

/-- The two frame-level cursors move past the staged frames (41_vadpcm.md R245, 10_state.md R58, R59). -/
def State.advanceStaged (s : State) (frames nb : Nat) : State :=
  { s with
    vByteCursor := s.fitU32 .byteCursor (s.vByteCursor.toNat + nb)
    vDecPos := BitVec.ofInt 32 (s.vDecPos.toInt + 16 * frames) }

/-- VSTAGE's checks of its operands and of the unit (41_vadpcm.md R245), in its order. The last two are none of R245's:
a negative pos (30_encoding.md R121) and an end past POS_MAX (92_eei_decisions.md D4) are BAD_ARG where every check that
R245 lists before its accesses passes, and so before any state change (60_exceptions.md R345; assumption 27, DEDUCED). -/
def vstageTrap (s : State) : Option Trap :=
  let dst := unsignedArg s.arg0
  let frames := signedArg s.arg1
  let pos := signedArg s.arg2
  let nb := frames.toNat * 9 * s.vChannels.toNat
  if frames < 0 then some ⟨.badArg, frames, 1⟩
  else if s.vOpen = false then some ⟨.notConfigured, 2, 0⟩
  else if pos ≠ s.vDecPos.toInt then some ⟨.desync, pos, s.vDecPos.toInt⟩
  else if s.windowEnd < dst + nb then some ⟨.badArg, dst, nb⟩
  else if s.vEntropy = true ∧ s.hBuilt = false then some ⟨.notConfigured, 3, 0⟩
  else if pos < 0 then some ⟨.badArg, pos, 0⟩
  else if posMax < pos + 16 * frames then some ⟨.badArg, pos, 16 * frames⟩
  else none

/-- VSTAGE's own part (41_vadpcm.md R245): in entropy mode one 9-byte block per frame and channel is unpacked. -/
def vstageBody (s : State) : Exit :=
  let dst := unsignedArg s.arg0
  let frames := (signedArg s.arg1).toNat
  let blocks := frames * s.vChannels.toNat
  let nb := frames * 9 * s.vChannels.toNat
  match vstageTrap s with
  | some t => .trap s t
  | none => (if s.vEntropy then stageBlocks dst blocks 0 s else stageRaw dst nb s).andThen
      fun t => .done (t.advanceStaged frames nb)

/-- VSTAGE: bring the next frames' compressed bytes into the appended region (41_vadpcm.md R245). -/
def execVstage (s : State) : Result := issue .vstage vstageBody s

/-! ### VJOB -/

/-- issue Job(j): the job joins QUEUE (00_scope.md R15, 41_vadpcm.md R252). -/
def vjobFinish (j : Job) (s : State) : Exit := .done { s with queue := s.queue ++ [j] }

/-- VJOB's own part, at issue (41_vadpcm.md R252): the input is captured now; the hold is for room in QUEUE. -/
def vjobBody (s : State) : Exit :=
  let dst := unsignedArg s.arg0
  let frames := signedArg s.arg1
  let staged := unsignedArg s.arg2
  let nout := frames.toNat * 16 * s.vChannels.toNat * 2
  let nin := frames.toNat * 9 * s.vChannels.toNat
  if frames < 0 then .trap s ⟨.badArg, frames, 1⟩
  else if s.vOpen = false then .trap s ⟨.notConfigured, 2, 0⟩
  else if s.windowEnd < dst + nout then .trap s ⟨.badArg, dst, nout⟩
  else if staged < dst ∨ dst + nout < staged + nin then .trap s ⟨.badArg, staged, nin⟩
  else match s.hazardAt staged (staged + nin) with
    | some lo => .trap s ⟨.hazard, staged, lo⟩
    | none => match Memory.readBytes s.storage staged nin with
      | none => .trap s ⟨.unwritten, staged, nin⟩
      | some input =>
        let j : Job := ⟨.vjob, dst, dst + nout, dst, frames.toNat, input⟩
        s.holdUntil s.queueHasRoom (.vjob j) (vjobFinish j)

/-- VJOB: issue an asynchronous decode of frames, in place (41_vadpcm.md R252). -/
def execVjob (s : State) : Result := issue .vjob vjobBody s

end Sys2Proof.Machine
end

