-- ==== Sys2Proof/Machine/Engine.lean ====
section
/-! DEFINITION. The offload engine: the retirement of a job, one atomic step (41_vadpcm.md R250, R252,
20_memory.md R94, R102). -/

namespace Sys2Proof.Machine

/-- The rows book[p][j], j < V_ORDER, of the selected predictor (41_vadpcm.md R235). -/
def State.codebookRows (s : State) (p : Nat) : Except Trap (List (List Int)) :=
  let order := s.vOrder.toNat
  match s.readHeader (p * order * 16) (order * 16) with
  | .error t => .error t
  | .ok bs => .ok ((groupsOf 8 order (halvesOf bs)).map (List.map BitVec.toInt))

/-- decode_frame of one channel (41_vadpcm.md R250): the 16 samples and the new history. -/
def decodeFrame (P : Predictor) (s : State) (hist : List Half) (frame : List Byte) :
    Except Trap (List Half × List Half) :=
  let p := framePredictor frame
  if s.vPcount.toNat ≤ p then .error ⟨.badPredictor, p, s.vPcount.toNat⟩
  else match s.codebookRows p with
    | .error t => .error t
    | .ok coef =>
      let xs := frameSamples P coef s.vOrder.toNat hist frame
      .ok (xs, nextHistory s.vOrder.toNat xs)

/-- The channels of one frame, in order, each with its 9 bytes (41_vadpcm.md R252). -/
def decodeChannels (P : Predictor) (s : State) : List (List Half) → List Byte →
    Except Trap (List (List Half) × List (List Half))
  | [], _ => .ok ([], [])
  | h :: rest, input =>
    match decodeFrame P s h (input.take 9) with
    | .error t => .error t
    | .ok (xs, h') => match decodeChannels P s rest (input.drop 9) with
      | .error t => .error t
      | .ok (xss, hs) => .ok (xs :: xss, h' :: hs)

/-- One frame's output bytes: sample k of every channel, then sample k + 1 (41_vadpcm.md R252, 20_memory.md R87). -/
def interleave (xss : List (List Half)) : List Byte :=
  (List.range 16).flatMap fun k => xss.flatMap fun xs => halfBytes (xs.getD k 0)

/-- V_HIST[c] for c < V_CH. -/
def channelHistories (channels : Nat) (hist : List (List Half)) : List (List Half) :=
  (List.range channels).map fun c => hist.getD c []

/-- The frames of a job, in order: the history after them and the output bytes (41_vadpcm.md R252). -/
def decodeFrames (P : Predictor) (s : State) : Nat → List (List Half) → List Byte →
    Except Trap (List (List Half) × List Byte)
  | 0, hist, _ => .ok (hist, [])
  | n + 1, hist, input =>
    match decodeChannels P s (channelHistories s.vChannels.toNat hist) (input.take (9 * s.vChannels.toNat)) with
    | .error t => .error t
    | .ok (xss, hist') => match decodeFrames P s n hist' (input.drop (9 * s.vChannels.toNat)) with
      | .error t => .error t
      | .ok (hist'', out) => .ok (hist'', interleave xss ++ out)

/-- A job's whole effect: STORAGE, V_HIST and QUEUE change together (20_memory.md R94). -/
def State.commitJob (s : State) (j : Job) (rest : List Job) (hist : List (List Half)) (out : List Byte) : Exit :=
  (s.storeBytes j.dst out).andThen fun t => .done { t with queue := rest, vHist := some hist }

/-- V_HIST as a retirement reads it (10_state.md R57); where it holds no value, which no run from reset reaches, every
sample is a free value (10_state.md R76, assumption 3). -/
def State.history (s : State) : List (List Half) :=
  match s.vHist with
  | some hist => hist
  | none => (List.range s.vChannels.toNat).map fun c =>
      (List.range s.vOrder.toNat).map (Config.freeHistory s.freeTick c)

/-- The retirement of job j, the oldest, at the head of QUEUE (41_vadpcm.md R252). -/
def retireJob (P : Predictor) (j : Job) (rest : List Job) (s : State) : Exit :=
  if j.frames = 0 then .done { s with queue := rest }
  else match decodeFrames P s j.frames s.history j.input with
    | .error t => .trap s t
    | .ok (hist, out) => s.commitJob j rest hist out

/-- The opcode a retirement fault is recorded with (60_exceptions.md R350). -/
def retirementOp : BitVec 8 := 0x23

/-- The offload engine's step with a given instance of VADPCM_PREDICT: nothing while FAULTED or while QUEUE is
empty, else the oldest job retires (20_memory.md R101, 60_exceptions.md R350). -/
def engineStepWith (P : Predictor) (s : State) : Result :=
  if s.lifeState = .faulted then .next s
  else match s.queue with
    | [] => .next s
    | j :: rest => (retireJob P j rest s).close retirementOp

/-- The offload engine's step (20_memory.md R101). -/
def engineStep (s : State) : Result := engineStepWith ownPredictor s

end Sys2Proof.Machine
end

