-- ==== Sys2Proof/Machine/Buffer.lean ====
section
/-! DEFINITION. The window commands GET, DISCARD, FLUSH, APPEND and UNDO (40_sample_buffer.md sections 2 to 6). -/

namespace Sys2Proof.Machine

/-! ### GET -/

/-- The discontinuity test (40_sample_buffer.md R175). -/
def State.discontinuous (s : State) (wpos : Int) : Bool :=
  let wp := s.writePos.toInt
  let wl := s.writeLen.toInt
  decide (wl = 0 ∨ ((wpos < wp ∨ wp + wl ≤ wpos) ∧ wpos ≠ s.nextExpected.toInt))

/-- GET's result (40_sample_buffer.md R188): RES0 is the byte offset of sample wpos, RES1 the length available. -/
def State.getResult (s : State) (wpos wlen : Int) : State :=
  let idx := wpos - s.writePos.toInt
  let avail := s.writeLen.toInt - idx
  { s with
    res0 := s.fitU32 .res0 (idx * s.bytesPerSample)
    res1 := BitVec.ofInt 32 (max 0 (min wlen avail)) }

/-- GET, discontinuous path up to its read request (40_sample_buffer.md R180). The seeking flag is computed from
NEW as it was before the flush. -/
def getDiscontinuous (wpos wlen : Int) (s : State) : Exit :=
  let seeking := decide (wpos ≠ s.nextExpected.toInt)
  let wp := if s.bytesPerSample = 1 ∧ wpos % 2 = 1 then wpos - 1 else wpos
  let flushedAt : State := { s.flushCursors with writePos := BitVec.ofInt 32 wp }
  let len := roundUp (wlen + (wpos - wp)) s.granularity
  if posMax < wp + len then .trap flushedAt ⟨.badArg, wp, len⟩
  else .done (State.requestRead { flushedAt with gPhase := true } wp len seeking)

/-- GET, continuous path up to its read request or its result (40_sample_buffer.md R185). -/
def getContinuous (wpos wlen : Int) (s : State) : Exit :=
  let marked : State := { s with readCursor := s.fitS32 .readCursor (wpos - s.writePos.toInt) }
  let reuse := s.writePos.toInt + s.writeLen.toInt - wpos
  let len := roundUp (wlen - reuse) s.granularity
  if reuse < wlen then
    if posMax < wpos + reuse + len then .trap marked ⟨.badArg, wpos + reuse, len⟩
    else .done (State.requestRead { marked with gPhase := false } (wpos + reuse) len false)
  else .done (marked.getResult wpos wlen)

/-- GET's own part (40_sample_buffer.md R170). -/
def getBody (s : State) : Exit :=
  let wpos := signedArg s.arg0
  let wlen := signedArg s.arg1
  if wpos < 0 then .trap s ⟨.badArg, wpos, 0⟩
  else if wlen < 0 then .trap s ⟨.badArg, wlen, 1⟩
  else if posMax < wpos + wlen then .trap s ⟨.badArg, wpos, wlen⟩
  else if s.widthSet = false then .trap s ⟨.notConfigured, 0, 0⟩
  else if s.sourceSet = false then .trap s ⟨.notConfigured, 1, 0⟩
  else
    let latched : State := { s with gWpos := s.arg0, gWlen := s.arg1 }
    if s.discontinuous wpos then getDiscontinuous wpos wlen latched else getContinuous wpos wlen latched

/-- GET (40_sample_buffer.md R170). -/
def execGet (s : State) : Result := issue .get getBody s

/-- The suspended GET after READ_DONE (40_sample_buffer.md R180, R185, R188): NEW becomes the window's end, then
the result. A window's end past POS_MAX is no legal position (10_state.md R37, R41, 92_eei_decisions.md D4): the
GET raises BAD_ARG with the range (assumption 9). -/
def getResume (s : State) : Exit :=
  let fin := s.writePos.toInt + s.writeLen.toInt
  let woken : State := { s with getSuspended := false }
  if posMax < fin then .trap woken ⟨.badArg, s.writePos.toInt, s.writeLen.toInt⟩
  else .done (State.getResult { woken with nextExpected := s.fitS32 .newPos fin } s.gWpos.toInt s.gWlen.toInt)

/-! ### DISCARD and FLUSH -/

/-- DISCARD's own part (40_sample_buffer.md R205). -/
def discardBody (s : State) : Exit :=
  let wpos := signedArg s.arg0
  if wpos < 0 then .trap s ⟨.badArg, wpos, 0⟩
  else s.discardWindow wpos (.discard wpos) .done

/-- DISCARD: drop the resident samples before a position (40_sample_buffer.md R205). -/
def execDiscard (s : State) : Result := issue .discard discardBody s

/-- FLUSH's own part (40_sample_buffer.md R210). -/
def flushBody (s : State) : Exit := .done (s.flushCursors.clearBytes 0 s.sizeBytes.toNat)

/-- FLUSH: empty the buffer, without a drain (40_sample_buffer.md R210). -/
def execFlush (s : State) : Result := issue .flush flushBody s

/-! ### APPEND and UNDO -/

/-- APPEND once there has been a compaction or none was needed (40_sample_buffer.md R190). -/
def appendTail (wlen : Int) (s : State) : Exit :=
  let newLen := s.writeLen.toInt + wlen
  let off := s.windowEnd
  let fin := off + wlen * s.bytesPerSample
  if (s.capacity : Int) < newLen then .trap s ⟨.capacity, newLen, s.capacity⟩
  else if off % 8 ≠ 0 then .trap s ⟨.misaligned, off, wlen⟩
  else match s.hazardAt off.toNat fin.toNat with
    | some lo => .trap s ⟨.hazard, off, lo⟩
    | none => .done { s.clearBytes off.toNat fin.toNat with
        writeLen := s.fitS32 .writeLen newLen
        res0 := s.fitU32 .res0 off }

/-- compact(), then the rest of APPEND (40_sample_buffer.md R195): everything before READ_CURSOR, rounded down to
the alignment granularity, is discarded. -/
def appendCompacting (wlen : Int) (s : State) : Exit :=
  s.discardWindow (s.writePos.toInt + roundDown s.readCursor.toInt s.granularity) (.append wlen) (appendTail wlen)

/-- APPEND's own part (40_sample_buffer.md R190). -/
def appendBody (s : State) : Exit :=
  let wlen := signedArg s.arg0
  if wlen < 0 then .trap s ⟨.badArg, wlen, 0⟩
  else if (s.capacity : Int) < s.writeLen.toInt + wlen then appendCompacting wlen s
  else appendTail wlen s

/-- APPEND: reserve space at the tail of the window (40_sample_buffer.md R190). -/
def execAppend (s : State) : Result := issue .append appendBody s

/-- UNDO's own part (40_sample_buffer.md R200). -/
def undoBody (s : State) : Exit :=
  let wlen := signedArg s.arg0
  let old := s.writeLen.toInt
  let kept := old - wlen
  if wlen < 0 then .trap s ⟨.badArg, wlen, 0⟩
  else if old < wlen then .trap s ⟨.undoUnderflow, wlen, old⟩
  else .done { s.clearBytes (kept * s.bytesPerSample).toNat (old * s.bytesPerSample).toNat with
    writeLen := BitVec.ofInt 32 kept
    readCursor := BitVec.ofInt 32 (min s.readCursor.toInt kept) }

/-- UNDO: retract the last appended samples (40_sample_buffer.md R200). -/
def execUndo (s : State) : Result := issue .undo undoBody s

end Sys2Proof.Machine
end

