-- ==== Sys2Proof/Machine/Lifecycle.lean ====
section
/-! DEFINITION. The lifecycle and configuration commands INIT, CLOSE, SET_WIDTH and SET_SOURCE
(40_sample_buffer.md section 1). -/

namespace Sys2Proof.Machine

/-- INIT's own part (40_sample_buffer.md R150). -/
def initBody (s : State) : Exit :=
  let size := unsignedArg s.arg0
  let reserved := unsignedArg s.arg1
  if s.lifeState ≠ .uninit then .trap s ⟨.config, 0x01, 1⟩
  else if size = 0 ∨ size % 8 ≠ 0 then .trap s ⟨.config, size, 8⟩
  else if reserved % 16 ≠ 0 then .trap s ⟨.config, reserved, 16⟩
  else if posMax < (size : Int) + reserved then .trap s ⟨.config, (size : Int) + reserved, posMax⟩
  else .done { s.flushCursors with
    storage := []
    sizeBytes := s.arg0
    stateReserved := s.arg1
    widthSet := false
    sourceSet := false
    sourceId := 0
    stateSize := 0
    vOpen := false
    hBuilt := false
    queue := []
    lifeState := .ready }

/-- INIT: create the buffer (40_sample_buffer.md R150). -/
def execInit (s : State) : Result := issue .init initBody s

/-- CLOSE after its drain (40_sample_buffer.md R152): storage is released and every register takes its power-on
value (10_state.md R78). -/
def closeFinish (s : State) : Exit := .done s.powerOn

/-- CLOSE's own part (40_sample_buffer.md R152). -/
def closeBody (s : State) : Exit := s.holdUntil s.drained .close closeFinish

/-- CLOSE: destroy the buffer (40_sample_buffer.md R152). -/
def execClose (s : State) : Result := issue .close closeBody s

/-- SET_WIDTH's own part (40_sample_buffer.md R155). -/
def setWidthBody (s : State) : Exit :=
  let w := s.arg0
  if widthReserved w ≠ 0 ∨ widthCode w = 3 then .trap s ⟨.badWidth, unsignedArg w, 0⟩
  else if ¬ s.flushed then .trap s ⟨.notFlushed, s.writeLen.toInt, s.nextExpected.toInt⟩
  else .done { s with wc := widthCode w, widthSet := true, vOpen := false }

/-- SET_WIDTH: set_sample_width (40_sample_buffer.md R155). -/
def execSetWidth (s : State) : Result := issue .setWidth setWidthBody s

/-- SET_SOURCE after its drain (40_sample_buffer.md R160): the source is bound, the VADPCM and Huffman units are
closed, and the state block's bytes and V_HIST hold no value. -/
def setSourceFinish (id ssize : Word) (s : State) : Exit :=
  .done { s.clearBytes s.sizeBytes.toNat s.storageSize with
    sourceId := id
    stateSize := ssize
    sourceSet := id != 0
    vOpen := false
    hBuilt := false
    vHist := none }

/-- SET_SOURCE's own part (40_sample_buffer.md R160). -/
def setSourceBody (s : State) : Exit :=
  let ssize := unsignedArg s.arg1
  if ¬ s.flushed then .trap s ⟨.notFlushed, s.writeLen.toInt, s.nextExpected.toInt⟩
  else if ssize % 16 ≠ 0 then .trap s ⟨.stateSize, ssize, 16⟩
  else if s.stateReserved.toNat < ssize then .trap s ⟨.stateSize, ssize, s.stateReserved.toNat⟩
  else s.holdUntil s.drained (.setSource s.arg0 s.arg1) (setSourceFinish s.arg0 s.arg1)

/-- SET_SOURCE: set_waveform_source (40_sample_buffer.md R160). -/
def execSetSource (s : State) : Result := issue .setSource setSourceBody s

end Sys2Proof.Machine
end

