-- ==== Sys2Proof/Machine/Sync.lean ====
section
/-! DEFINITION. DRAIN, READ_DONE and SCOPY (40_sample_buffer.md section 7). -/

namespace Sys2Proof.Machine

/-- DRAIN's own part: `drain()` (40_sample_buffer.md R215). -/
def drainBody (s : State) : Exit := s.holdUntil s.drained .drain .done

/-- DRAIN: wait for the offload engine (40_sample_buffer.md R215). -/
def execDrain (s : State) : Result := issue .drain drainBody s

/-- READ_DONE's own part (40_sample_buffer.md R220). The suspended GET resumes in a later step (assumption 17). -/
def readDoneBody (s : State) : Exit := .done { s with inRead := false }

/-- READ_DONE: return from the source's read (40_sample_buffer.md R220). -/
def execReadDone (s : State) : Result := issue .readDone readDoneBody s

/-- SCOPY's own part (40_sample_buffer.md R222). -/
def scopyBody (s : State) : Exit :=
  let dst := unsignedArg s.arg0
  let src := unsignedArg s.arg1
  let n := signedArg s.arg2
  if n < 0 then .trap s ⟨.badArg, n, 2⟩
  else if s.windowEnd < dst + n then .trap s ⟨.badArg, dst, n⟩
  else match s.hazardAt dst (dst + n.toNat) with
    | some lo => .trap s ⟨.hazard, dst, lo⟩
    | none => match s.readStream src n.toNat with
      | .error t => .trap s t
      | .ok bs => s.storeBytes dst bs

/-- SCOPY: the source writes stream bytes into the appended region (40_sample_buffer.md R222). -/
def execScopy (s : State) : Result := issue .scopy scopyBody s

end Sys2Proof.Machine
end

