-- ==== Sys2Proof/Machine/Dispatch.lean ====
section
/-! DEFINITION. What each command does: one arm per constructor of Instr (30_encoding.md R122). -/

namespace Sys2Proof.Machine

/-- A decoded command word, from its common checks to its completion or its hold (60_exceptions.md R345, R346). -/
def exec (i : Instr) (s : State) : Host.Outcome State Fault Refusal :=
  match i with
  | .init => Sys2Proof.Machine.execInit s
  | .close => Sys2Proof.Machine.execClose s
  | .setWidth => Sys2Proof.Machine.execSetWidth s
  | .setSource => Sys2Proof.Machine.execSetSource s
  | .get => Sys2Proof.Machine.execGet s
  | .discard => Sys2Proof.Machine.execDiscard s
  | .flush => Sys2Proof.Machine.execFlush s
  | .drain => Sys2Proof.Machine.execDrain s
  | .append => Sys2Proof.Machine.execAppend s
  | .undo => Sys2Proof.Machine.execUndo s
  | .readDone => Sys2Proof.Machine.execReadDone s
  | .scopy => Sys2Proof.Machine.execScopy s
  | .vopen => Sys2Proof.Machine.execVopen s
  | .vseek => Sys2Proof.Machine.execVseek s
  | .vstage => Sys2Proof.Machine.execVstage s
  | .vjob => Sys2Proof.Machine.execVjob s
  | .hbuild => Sys2Proof.Machine.execHbuild s
  | .hdecode => Sys2Proof.Machine.execHdecode s

end Sys2Proof.Machine
end

