-- ==== Sys2Proof/Machine/Flags.lean ====
section
/-! DEFINITION. The block has no condition flags (40_sample_buffer.md preamble). Its flag-like views are here:
STATUS, BUF_CONFIG, V_CONFIG, H_STATUS and CAPACITY as the REG window shows them (30_encoding.md R127, 10_state.md R61). -/

namespace Sys2Proof.Machine

/-- One bit as a number. -/
def bitOf (b : Bool) : Nat := if b then 1 else 0

/-- STATUS.EMPTY: WRITE_LEN = 0 (30_encoding.md R127). -/
def State.emptyFlag (s : State) : Bool := s.writeLen == 0

/-- STATUS.QCOUNT = min(length of QUEUE, 255) (30_encoding.md R127). -/
def State.qcount (s : State) : Nat := min s.queue.length 255

/-- STATUS (30_encoding.md R127). -/
def State.statusWord (s : State) : Word :=
  BitVec.ofNat 32 ((lifeCode s.lifeState).toNat + 4 * bitOf s.inRead + 8 * bitOf s.emptyFlag
    + 256 * (causeCode s.faultCause).toNat + 65536 * s.faultOp.toNat + 16777216 * s.qcount)

/-- CAPACITY, or 0 while WIDTH_SET = 0 (30_encoding.md R127). -/
def State.capacityWord (s : State) : Word := if s.widthSet then BitVec.ofNat 32 s.capacity else 0

/-- BUF_CONFIG (30_encoding.md R127). -/
def State.bufConfigWord (s : State) : Word :=
  BitVec.ofNat 32 (s.wc.toNat + 4 * bitOf s.widthSet + 8 * bitOf s.sourceSet)

/-- V_CONFIG (10_state.md R61). Bit [9] is V_CH - 1, which reads 0 while V_CH is 0 (assumption 25). -/
def State.vConfigWord (s : State) : Word :=
  BitVec.ofNat 32 (s.vOrder.toNat + 16 * s.vPcount.toNat + 512 * bitOf (s.vChannels == 2)
    + 1024 * bitOf s.vEntropy + 2048 * bitOf s.vOpen + 65536 * s.vVersion.toNat)

/-- H_STATUS (30_encoding.md R127). -/
def State.hStatusWord (s : State) : Word := BitVec.ofNat 32 (bitOf s.hBuilt)

end Sys2Proof.Machine
end

