-- ==== Sys2Proof/Machine/RegMap.lean ====
section
/-! DEFINITION. The REG window (30_encoding.md R127, 20_memory.md R85, R92, R95) and consumer reads (20_memory.md R105). -/

namespace Sys2Proof.Machine

/-- The opcode a fault of a consumer read or a REG access is recorded with (60_exceptions.md R350). -/
def noOp : BitVec 8 := 0x00

/-- A fault raised by a REG access or a consumer read; nothing is recorded while FAULTED (60_exceptions.md R352). -/
def State.raiseUnlessFaulted (s : State) (t : Trap) : State :=
  if s.lifeState = .faulted then s else s.raise noOp t

/-- The value a listed readable register shows (30_encoding.md R127), or none. -/
def State.registerValue (s : State) (offset : BitVec 8) : Option Word :=
  match offset.toNat with
  | 0x04 => some s.arg0
  | 0x08 => some s.arg1
  | 0x0C => some s.arg2
  | 0x10 => some s.arg3
  | 0x14 => some s.res0
  | 0x18 => some s.res1
  | 0x1C => some s.statusWord
  | 0x20 => some s.faultInfo0
  | 0x24 => some s.faultInfo1
  | 0x28 => some s.writePos
  | 0x2C => some s.writeLen
  | 0x30 => some s.readCursor
  | 0x34 => some s.nextExpected
  | 0x38 => some s.capacityWord
  | 0x3C => some s.bufConfigWord
  | 0x40 => some s.sizeBytes
  | 0x44 => some s.stateReserved
  | 0x48 => some s.stateSize
  | 0x4C => some s.sourceId
  | 0x50 => some s.rreqPos
  | 0x54 => some s.rreqLen
  | 0x58 => some (BitVec.ofNat 32 (bitOf s.rreqSeek))
  | 0x80 => some s.vConfigWord
  | 0x84 => some s.vLength
  | 0x88 => some s.vDecPos
  | 0x8C => some s.vByteCursor
  | 0x90 => some s.vBitPos
  | 0x94 => some s.vSkipBase
  | 0x98 => some s.vSkipCount
  | 0x9C => some s.hStatusWord
  | _ => none

/-- A REG access that is not 32 bits wide or not at a multiple of 4 (20_memory.md R92). -/
def badAccess (offset : BitVec 8) (width : Nat) : Bool := width != 32 || offset.toNat % 4 != 0

/-- A REG read (30_encoding.md R127): what it returns is left in hostWord (assumption 20). -/
def State.regRead (s : State) (offset : BitVec 8) (width : Nat) : State :=
  if badAccess offset width then State.raiseUnlessFaulted { s with hostWord := none } ⟨.badReg, offset.toNat, width⟩
  else match s.registerValue offset with
    | some v => { s with hostWord := some v }
    | none => State.raiseUnlessFaulted { s with hostWord := none } ⟨.badReg, offset.toNat, 0⟩

/-- A write of a command word (30_encoding.md R120, 60_exceptions.md R345): no effect while FAULTED (check 1), an
illegal word faults (check 2), and a listed one is executed. -/
def issueWord (w : Word) (s : State) : Result :=
  if s.lifeState = .faulted then .next s
  else match decode w with
    | .error _ => .next (s.raise (w.extractLsb' 0 8) ⟨.illegalCommand, w.toNat, 0⟩)
    | .ok i => exec i s

/-- A REG write (30_encoding.md R127). -/
def regWrite (offset : BitVec 8) (width : Nat) (value : Word) (s : State) : Result :=
  if badAccess offset width then .next (s.raiseUnlessFaulted ⟨.badReg, offset.toNat, width⟩)
  else match offset.toNat with
    | 0x00 => issueWord value s
    | 0x04 => .next { s with arg0 := value }
    | 0x08 => .next { s with arg1 := value }
    | 0x0C => .next { s with arg2 := value }
    | 0x10 => .next { s with arg3 := value }
    | _ => .next (s.raiseUnlessFaulted ⟨.badReg, offset.toNat, 1⟩)

/-- A consumer read (20_memory.md R105): the range (R81, assumption 12), the hazard, then the bytes; what it returns
is left in hostBytes (assumption 20). While FAULTED it returns no data (60_exceptions.md R350). -/
def State.consumerRead (s : State) (off n : Nat) : State :=
  let blank : State := { s with hostBytes := none }
  if s.lifeState = .faulted then blank
  else if n ≠ 0 ∧ s.storageSize < off + n then blank.raise noOp ⟨.badArg, off, s.storageSize⟩
  else match s.hazardAt off (off + n) with
    | some lo => blank.raise noOp ⟨.hazard, off, lo⟩
    | none => match Memory.readBytes s.storage off n with
      | none => blank.raise noOp ⟨.unwritten, off, n⟩
      | some bs => { s with hostBytes := some bs }

end Sys2Proof.Machine
end

