-- ==== Sys2Proof/Machine/Source.lean ====
section
/-! DEFINITION. The reference sources RAW and VSRC as agents (43_source_contract.md R318, R322): at each turn the
bound source issues its next command of the answer to the outstanding read request. -/

namespace Sys2Proof.Machine

/-- A source's turn. -/
inductive SourceTurn where
  /-- It stores the operands and issues the command (30_encoding.md R129); `after` is where it then stands. -/
  | issue (i : Instr) (a0 a1 a2 : Word) (after : SourcePhase)
  /-- An outside source: its commands come from State.inputs. -/
  | outside
  /-- The transform-coded source (00_scope.md R5). -/
  | refused
deriving DecidableEq, Repr

/-- An operand of a source's command. -/
def State.operand (s : State) (v : Int) : Word := s.fitU32 .sourceOperand v

/-- READ_DONE, the end of every answer. -/
def State.sayDone (s : State) : SourceTurn := .issue .readDone s.arg0 s.arg1 s.arg2 s.srcPhase

/-- RAW's next command (43_source_contract.md R318). -/
def State.rawTurn (s : State) (total : Nat) : SourceTurn :=
  let n := max 0 (min s.rreqLen.toInt (total - s.rreqPos.toInt))
  match s.srcPhase with
  | .start => if 0 < n then .issue .append (s.operand n) s.arg1 s.arg2 .appended else s.sayDone
  | .appended =>
    .issue .scopy s.res0 (s.operand (s.rreqPos.toInt * s.bytesPerSample)) (s.operand (n * s.bytesPerSample)) .copied
  | _ => s.sayDone

/-- R of VSRC: whole frames only (43_source_contract.md R322). -/
def State.vsrcCount (s : State) : Int :=
  min (roundUp s.rreqLen.toInt 16) (roundUp (s.vLength.toInt - s.rreqPos.toInt) 16)

/-- The STORAGE offset of VSRC's staged bytes, at the tail of the appended region (43_source_contract.md R322). -/
def State.vsrcStaged (s : State) (off : Word) : Int :=
  off.toNat + s.vsrcCount * s.bytesPerSample - s.vsrcCount / 16 * 9 * s.vChannels.toNat

/-- VSRC's command once it is positioned (43_source_contract.md R322). -/
def State.vsrcAppend (s : State) : SourceTurn :=
  if s.vLength.toInt - s.rreqPos.toInt ≤ 0 ∨ s.rreqLen.toInt = 0 then s.sayDone
  else .issue .append (s.operand s.vsrcCount) s.arg1 s.arg2 .appended

/-- VSRC's next command (43_source_contract.md R322). -/
def State.vsrcTurn (s : State) : SourceTurn :=
  let excess := s.rreqPos.toInt + s.vsrcCount - s.vLength.toInt
  match s.srcPhase with
  | .start => if s.rreqSeek then .issue .vseek s.rreqPos s.arg1 s.arg2 .seeked else s.vsrcAppend
  | .seeked => s.vsrcAppend
  | .appended =>
    .issue .vstage (s.operand (s.vsrcStaged s.res0)) (s.operand (s.vsrcCount / 16)) s.rreqPos (.staged s.res0)
  | .staged off => .issue .vjob off (s.operand (s.vsrcCount / 16)) (s.operand (s.vsrcStaged off)) .issued
  | .issued => if 0 < excess then .issue .undo (s.operand excess) s.arg1 s.arg2 .trimmed else s.sayDone
  | _ => s.sayDone

/-- The bound source's next turn (40_sample_buffer.md R182: the source identified by SOURCE_ID answers). -/
def State.sourceTurn (s : State) : SourceTurn :=
  match s.boundMedia.agent with
  | .external => .outside
  | .raw total => s.rawTurn total
  | .vsrc => s.vsrcTurn
  | .transform => .refused

/-- A source's turn is taken: its operands are stored and its command is executed; an outside source's turn is
nothing, and a transform-coded source's is refused by name (00_scope.md R5). -/
def takeSourceTurn (turn : SourceTurn) (s : State) : Result :=
  match turn with
  | .issue i a0 a1 a2 after => exec i { s with arg0 := a0, arg1 := a1, arg2 := a2, srcPhase := after }
  | .outside => .next s
  | .refused => .refused .transformCodedSource

end Sys2Proof.Machine
end

