-- ==== Sys2Proof/Machine/Control.lean ====
section
/-! DEFINITION. Which agent moves, and what its move does (60_exceptions.md R346, 20_memory.md R100, R101,
70_reset_and_hazards.md R395). -/

namespace Sys2Proof.Machine

/-- Whether what a held command waits for is true (00_scope.md R15). -/
def State.heldReady (s : State) : Held → Bool
  | .vjob _ => s.queueHasRoom
  | _ => s.drained

/-- The rest of a held command, with the operands it latched, and the opcode its faults are recorded with. -/
def resumeHeld (h : Held) (s : State) : Result :=
  match h with
  | .close => (closeFinish s).close (opcode .close)
  | .setSource id ssize => (setSourceFinish id ssize s).close (opcode .setSource)
  | .drain => .next s
  | .discard wpos => (s.discardWindow wpos (.discard wpos) .done).close (opcode .discard)
  | .append wlen => (appendCompacting wlen s).close (opcode .append)
  | .vopen cfg => (vopenFinish cfg s).close (opcode .vopen)
  | .vseek offset => (vseekFinish offset s).close (opcode .vseek)
  | .vjob job => (vjobFinish job s).close (opcode .vjob)

/-- What the control path would do next by itself, without a new command word. -/
inductive ControlWork where
  /-- A command is held; it goes on as soon as QUEUE allows. -/
  | held (h : Held)
  /-- READ_DONE has been issued and the suspended GET goes on. -/
  | getGoesOn
  /-- A read request is outstanding, and its answer does not come from outside the model. -/
  | source
  /-- Nothing: the control path waits for a command word. -/
  | nothing
deriving DecidableEq, Repr

/-- The control path's own work (20_memory.md R100). -/
def State.controlWork (s : State) : ControlWork :=
  if s.lifeState = .faulted then .nothing
  else match s.held with
    | some h => .held h
    | none =>
      if s.inRead then (if s.boundMedia.agent = .external then .nothing else .source)
      else if s.getSuspended then .getGoesOn
      else .nothing

/-- A step of the control path's own work; where it has none, or its held command cannot go on yet, `idle` says what
happens. -/
def controlStep (idle : State → Result) (s : State) : Result :=
  match s.controlWork with
  | .held h => if s.heldReady h then resumeHeld h { s with held := none } else idle s
  | .getGoesOn => (getResume s).close (opcode .get)
  | .source => takeSourceTurn s.sourceTurn s
  | .nothing => idle s

/-- Whether a reference source of the model answers an outstanding read: all the writes of the read are then its own. -/
def State.answeredByModel (s : State) : Bool := s.inRead && s.boundMedia.agent != .external

/-- Whether a REG write must wait its turn (assumption 16): a command word while a command is incomplete
(20_memory.md R100, 70_reset_and_hazards.md R397); any write while a source of the model answers a read, be its
command held or not (the host writes only while IN_READ = 0, R397); and any write while CLOSE is held, since CLOSE clears
ARG0 to ARG3 when it completes and no program needs a wait (R392). -/
def State.writeWaits (s : State) (offset : BitVec 8) : Bool :=
  s.controlWork != .nothing && (offset == 0 || s.answeredByModel || s.held == some .close)

/-- The step of the machine once the free-value counter has moved on. The first listed move is made, unless it must
wait; with no move to make the control path goes on, or else the offload engine, which lifts what a command is held on
(20_memory.md R101, 70_reset_and_hazards.md R395). Every order of the agents' steps is some list (assumption 1). -/
def stepMoves (s : State) : Result :=
  match s.inputs with
  | [] => controlStep engineStep s
  | .powerOn :: rest => .next (State.powerOn { s with inputs := rest })
  | .engine :: rest => engineStep { s with inputs := rest }
  | .control :: rest => controlStep .next { s with inputs := rest }
  | .regRead offset width :: rest => .next (State.regRead { s with inputs := rest } offset width)
  | .consumerRead off n :: rest => .next (State.consumerRead { s with inputs := rest } off n)
  | .regWrite offset width value :: rest =>
    if s.writeWaits offset then controlStep engineStep s
    else regWrite offset width value { s with inputs := rest }

/-- The move that issues a command word: a 32-bit write of REG offset 0x00 (30_encoding.md R120). -/
def issueMove (w : Word) : Move := .regWrite 0x00 32 w

/-- The machine with the commands of an outstanding read coming from outside, whatever source is bound. -/
def State.answeredFromOutside (s : State) : State :=
  if s.inRead ∧ s.boundMedia.agent ≠ .external then
    { s with media := (s.sourceId, { s.boundMedia with agent := .external }) :: s.media }
  else s

/-- The machine with a command word as the outside world's next move and the control path free to take it
(assumption 15). -/
def State.withNextCommand (s : State) (w : Word) : State :=
  { s.answeredFromOutside with
    inputs := issueMove w :: s.inputs
    held := none
    getSuspended := s.getSuspended && s.inRead }

end Sys2Proof.Machine
end

