-- ==== Sys2Proof/Machine/Step.lean ====
section
/-! DEFINITION. One step of the machine (60_exceptions.md R346), and where its next command comes from. -/

namespace Sys2Proof.Machine

/-- One step: the free-value counter moves on, then one agent makes one move. -/
def step (s : State) : Host.Outcome State Fault Refusal :=
  Sys2Proof.Machine.stepMoves { s with freeTick := s.freeTick + 1 }

/-- The state whose next step takes the command word `w` (30_encoding.md R120). The block fetches nothing: a command
word arrives as a write of CMD (assumption 15). -/
def State.withFetchWord (s : State) (nbits w : Nat) : State :=
  Sys2Proof.Machine.State.withNextCommand s (BitVec.ofNat 32 (w % 2 ^ nbits))

end Sys2Proof.Machine
end

