-- ==== Sys2Proof/Machine/Voices.lean ====
section
/-! DEFINITION. N_VOICES instances of the block, one per voice, sharing no state (60_exceptions.md R368). -/

namespace Sys2Proof.Machine

/-- The N_VOICES instances after power-on reset. -/
def resetVoices : List State := List.replicate Config.voiceCount State.reset

/-- Voice k of the list takes a step; where it has no next state, no voice moves. -/
def stepVoice (voices : List State) (k : Nat) : List State :=
  match voices[k]? with
  | none => voices
  | some s => match step s with
    | .next t => voices.set k t
    | .fault _ => voices
    | .refused _ => voices

end Sys2Proof.Machine
end

