-- ==== Sys2Proof/Safety.lean ====
section
/-! DEFINITION. The conditions claims are stated in: the invariants of a run, a clean launch, the end of a run. -/

namespace Sys2Proof.Machine

/-- READY, with no command in progress and no read outstanding: the states 10_state.md R41 speaks of. -/
abbrev State.betweenCommands (s : State) : Prop :=
  s.lifeState = .ready ∧ s.inRead = false ∧ s.getSuspended = false ∧ s.held = none

/-- READY, in a read request, with no command in progress: where a source's command starts (40_sample_buffer.md R182). -/
abbrev State.answeringRead (s : State) : Prop :=
  s.lifeState = .ready ∧ s.inRead = true ∧ s.held = none

/-- The five items of 10_state.md R41. -/
abbrev State.cursorInvariants (s : State) : Prop :=
  (0 ≤ s.readCursor.toInt ∧ s.readCursor.toInt ≤ s.writeLen.toInt)
  ∧ s.writeLen.toInt ≤ s.capacity
  ∧ s.writePos.toInt + s.writeLen.toInt ≤ posMax
  ∧ (s.nextExpected.toInt = -1 ∨ s.nextExpected.toInt = s.writePos.toInt + s.writeLen.toInt)
  ∧ (s.nextExpected.toInt = -1 → s.writeLen.toInt = 0)

/-- A held command of class S. -/
abbrev Held.ofSource : Held → Bool
  | .append _ | .vseek _ | .vjob _ => true
  | .close | .setSource _ _ | .drain | .discard _ | .vopen _ => false

/-- A held command of class H. -/
abbrev Held.ofHost : Held → Bool
  | .close | .setSource _ _ | .discard _ | .vopen _ => true
  | .drain | .append _ | .vseek _ | .vjob _ => false

/-- A held VJOB. -/
abbrev Held.isJob : Held → Bool
  | .vjob _ => true
  | .close | .setSource _ _ | .drain | .discard _ | .append _ | .vopen _ | .vseek _ => false

/-- What holds of the window in every state of a run that is not FAULTED, in a read or outside one. -/
abbrev State.windowBounds (s : State) : Prop :=
  0 ≤ s.writePos.toInt ∧ 0 ≤ s.readCursor.toInt ∧ s.readCursor.toInt ≤ s.writeLen.toInt
  ∧ s.writeLen.toInt ≤ s.capacity ∧ s.writePos.toInt + s.readCursor.toInt ≤ posMax
  ∧ (s.sizeBytes.toNat : Int) ≤ posMax

/-- The invariant of the window (10_state.md R37, R38, R41), strong enough for every step to keep it: the bounds
always, R41 while no GET is suspended, a held command only where its class allows it, and no held APPEND of a negative
length (40_sample_buffer.md R190). -/
abbrev State.windowInvariant (s : State) : Prop :=
  s.lifeState = .faulted ∨
    (s.windowBounds
      ∧ (s.getSuspended = false → s.inRead = false ∧ s.cursorInvariants)
      ∧ (s.held.any Held.ofSource = true → s.inRead = true)
      ∧ (s.held.any Held.ofHost = true → s.getSuspended = false)
      ∧ (∀ w, s.held = some (.append w) → 0 ≤ w))

/-- The canonical form of STORAGE, and no byte beyond its size (10_state.md R46, 20_memory.md R81). -/
abbrev State.storageInvariant (s : State) : Prop :=
  Memory.wf s.storage = true ∧ ∀ c ∈ s.storage, c.1 < s.storageSize

/-- Nothing that holds no value is ever used: V_HIST has a value while a job could retire, and the tables are
filled while H_BUILT is 1 (10_state.md R76, 42_huffman.md R284). -/
abbrev State.unitInvariant (s : State) : Prop :=
  s.lifeState = .faulted ∨
    ((s.vOpen = true ∨ s.queue ≠ [] ∨ s.held.any Held.isJob = true → s.vHist.isSome = true)
      ∧ (s.hBuilt = true → s.hTab.ctx0.isSome = true ∧ s.hTab.ctx1.isSome = true ∧ s.hTab.ctx2.isSome = true))

/-- An explicit window: WRITE_POS, WRITE_LEN, READ_CURSOR and NEW. -/
structure Window where
  pos : Word
  len : Word
  cursor : Word
  newPos : Word
deriving DecidableEq, Repr

/-- What a claim says of its launch (70_reset_and_hazards.md R386): whether the bound source is a VADPCM source, an
explicit window where the buffer is not flushed, and the pending jobs. -/
structure Launch where
  vadpcm : Bool
  window : Option Window
  jobs : List Job
deriving DecidableEq, Repr

/-- The buffer is flushed, or the explicit window is the one given. -/
abbrev State.launchWindow (s : State) : Option Window → Prop
  | none => s.flushed = true
  | some w => s.writePos = w.pos ∧ s.writeLen = w.len ∧ s.readCursor = w.cursor ∧ s.nextExpected = w.newPos

/-- The premises of a claim about a command sequence (70_reset_and_hazards.md R386): READY without a fault, no read
outstanding and no command in progress, exactly the listed jobs pending (none, where none is listed), the buffer
configured, its window as the launch says, and for a VADPCM source the unit open, with built tables where entropy
coded. -/
abbrev State.cleanLaunch (s : State) (l : Launch) : Prop :=
  s.lifeState = .ready ∧ s.faultCause = .none ∧ s.inRead = false ∧ s.getSuspended = false ∧ s.held = none
  ∧ s.queue = l.jobs ∧ s.widthSet = true ∧ s.sourceSet = true ∧ s.launchWindow l.window
  ∧ (l.vadpcm = true ∨ s.boundMedia.agent = .vsrc →
      s.vOpen = true ∧ (s.vEntropy = true → s.hBuilt = true))

/-- A run has ended (70_reset_and_hazards.md R396): no move is left, every command has completed, no read is
outstanding and no job is pending. -/
abbrev State.runEnded (s : State) : Prop :=
  s.inputs = [] ∧ s.inRead = false ∧ s.getSuspended = false ∧ s.held = none ∧ s.queue = []

/-- A run has ended well: FAULTED is never a successful end (70_reset_and_hazards.md R396). -/
abbrev State.runEndedWell (s : State) : Prop := s.runEnded ∧ s.lifeState ≠ .faulted

end Sys2Proof.Machine
end

