-- ==== Sys2Proof/Certificates/Slice0/Obligations.lean ====
section
/-! DEFINITION. The statements for the provers. Each docstring names the rule or section of the spec it formalises. -/

open Sys2Proof Sys2Proof.Machine

namespace Sys2Proof.Machine

/-! ### Words the statements are written with -/

/-- `s` with the registers a fault entry writes (60_exceptions.md R350), and the hold, as `t` has them. -/
abbrev State.faultLike (s t : State) : State :=
  { s with
    lifeState := t.lifeState
    faultCause := t.faultCause
    faultInfo0 := t.faultInfo0
    faultInfo1 := t.faultInfo1
    faultOp := t.faultOp
    held := t.held
    getSuspended := t.getSuspended }

/-- `s` after the outside world's first move has been taken off, the free-value counter moved on. -/
abbrev State.afterMove (s : State) (rest : List Move) : State :=
  { s with inputs := rest, freeTick := s.freeTick + 1 }

/-- The next move is a write of the command word `w`, and it need not wait. -/
abbrev State.nextIsCommand (s : State) (w : Word) (rest : List Move) : Prop :=
  s.inputs = issueMove w :: rest ∧ s.writeWaits 0 = false

/-- READY and outside a read: where a class H command passes the common checks. -/
abbrev State.hostMayIssue (s : State) : Prop := s.lifeState = .ready ∧ s.inRead = false

/-- READY and in a read: where a class S command passes the common checks. -/
abbrev State.sourceMayIssue (s : State) : Prop := s.lifeState = .ready ∧ s.inRead = true

/-- `len` is round_up(n, g) (00_scope.md R12): the least multiple of g that is at least n. -/
abbrev isRoundUp (len n g : Int) : Prop := len % g = 0 ∧ n ≤ len ∧ len < n + g

/-- No pending job writes a byte of [lo, hi) (20_memory.md R104). -/
abbrev State.noHazard (s : State) (lo hi : Nat) : Prop :=
  ∀ j ∈ s.queue, ¬ (max j.lo lo < min j.hi hi)

/-- The operands and the configuration with which a GET goes past its checks (40_sample_buffer.md R170). -/
abbrev State.getPasses (s : State) : Prop :=
  s.hostMayIssue ∧ 0 ≤ s.arg0.toInt ∧ 0 ≤ s.arg1.toInt ∧ s.arg0.toInt + s.arg1.toInt ≤ posMax
  ∧ s.widthSet = true ∧ s.sourceSet = true

/-- `x` is the fault of the first of the listed checks that fails, in their order (60_exceptions.md R345). -/
def firstFailing : List (Prop × Trap) → Trap → Prop
  | [], _ => False
  | (fails, t) :: rest, x => (fails ∧ x = t) ∨ (¬ fails ∧ firstFailing rest x)

/-- None of the listed checks fails. -/
def allPass (checks : List (Prop × Trap)) : Prop := ∀ c ∈ checks, ¬ c.1

/-- The next step is the control path's: no move is listed, or the control path's own step is; `rest` are the moves
after it. -/
abbrev State.controlPathIsNext (s : State) (rest : List Move) : Prop :=
  (s.inputs = [] ∧ rest = []) ∨ s.inputs = .control :: rest

/-- A result with ARG0 to ARG3 as `s` has them. -/
def keepArgs (s : State) : Result → Result
  | .next t => .next { t with arg0 := s.arg0, arg1 := s.arg1, arg2 := s.arg2, arg3 := s.arg3 }
  | .fault f => .fault f
  | .refused x => .refused x

end Sys2Proof.Machine

/-! ### Decoding and the step -/

/-- 30_encoding.md R123: the decoder accepts exactly the encodings, each as its own command, and rejects exactly
the words with a non-zero [31:8] or an unlisted OP. -/
def Obligations.DecodeAcceptsExactlyTheEncodings : Prop :=
  ∀ w : Word,
    (∀ i : Instr, decode w = .ok i ↔ w = (opcode i).setWidth 32)
    ∧ ((∃ e, decode w = .error e) ↔ (w.extractLsb' 8 24 ≠ 0 ∨ w.extractLsb' 0 8 ∉ listedOpcodes))

/-- Words written out from 30_encoding.md R122, one or more per family, and reserved ones (R126). -/
def Obligations.WrittenOutWordsDecode : Prop :=
  decode 0b00000000000000000000000000000001#32 = .ok .init
  ∧ decode 0b00000000000000000000000000000101#32 = .ok .get
  ∧ decode 0b00000000000000000000000000010000#32 = .ok .append
  ∧ decode 0b00000000000000000000000000010011#32 = .ok .scopy
  ∧ decode 0b00000000000000000000000000100011#32 = .ok .vjob
  ∧ decode 0b00000000000000000000000000110001#32 = .ok .hdecode
  ∧ decode 0b00000000000000000000000000000000#32 = .error .unlistedOpcode
  ∧ decode 0b00000000000000000000000100000101#32 = .error .reservedBits
  ∧ decodeTableWord 32 0x22 = some .vstage

/-- A step runs the decoded instruction (30_encoding.md R120, 60_exceptions.md R345, R346): a write of a command word
is the execution of its command; where a command is in progress the word waits and the control path goes on, and while
CLOSE is held every REG write waits (70_reset_and_hazards.md R392; assumption 16, DESIGN CHOICE). -/
def Obligations.StepRunsTheWrittenCommand : Prop :=
  (∀ (s : State) (w : Word) (rest : List Move) (i : Instr), s.inputs = issueMove w :: rest → decode w = .ok i →
    (s.writeWaits 0 = false → step s = exec i (s.afterMove rest))
    ∧ (s.writeWaits 0 = true → step s = controlStep engineStep { s with freeTick := s.freeTick + 1 }))
  ∧ ∀ (s : State) (offset : BitVec 8) (width : Nat) (v : Word) (rest : List Move),
      s.inputs = .regWrite offset width v :: rest → s.lifeState ≠ .faulted → s.held = some .close →
      step s = controlStep engineStep { s with freeTick := s.freeTick + 1 }

/-- 30_encoding.md R126: a reserved word faults with ILLEGAL_COMMAND; in UNINIT a listed command other than INIT
faults with NOT_INITIALISED; while FAULTED a command word has no effect. -/
def Obligations.ReservedAndEarlyCommandsFault : Prop :=
  ∀ (s : State) (w : Word) (rest : List Move), s.nextIsCommand w rest →
    (s.lifeState ≠ .faulted → (∀ i, w ≠ encode i) →
      step s = .next ((s.afterMove rest).raise (w.extractLsb' 0 8) ⟨.illegalCommand, w.toNat, 0⟩))
    ∧ (s.lifeState = .uninit → ∀ i, i ≠ .init → w = encode i →
        step s = .next ((s.afterMove rest).raise (opcode i) ⟨.notInitialised, (opcode i).toNat, 0⟩))
    ∧ (s.lifeState = .faulted → step s = .next (s.afterMove rest))

/-- 30_encoding.md R125: class H only outside a read, class S only inside one, DRAIN at either time. -/
def Obligations.CommandClassesAreChecked : Prop :=
  ∀ s : State, s.lifeState = .ready →
    (∀ i, commandClass i = .host → s.inRead = true →
      exec i s = .next (s.raise (opcode i) ⟨.reentrant, (opcode i).toNat, 0⟩))
    ∧ (∀ i, commandClass i = .source → s.inRead = false →
        exec i s = .next (s.raise (opcode i) ⟨.notInRead, (opcode i).toNat, 0⟩))
    ∧ (∀ i, commandClass i = .any ↔ i = .drain)
    ∧ (s.queue = [] → exec .drain s = .next s)
    ∧ (s.queue ≠ [] → exec .drain s = .next { s with held := some .drain })

/-- 60_exceptions.md R350: a command that faults records its own opcode, ends what is in progress, and leaves the
queue, IN_READ, the read request, V_HIST and every register it had not written. -/
def Obligations.FaultingCommandKeepsItsContext : Prop :=
  ∀ (i : Instr) (s t : State), s.lifeState ≠ .faulted → exec i s = .next t → t.lifeState = .faulted →
    t.faultOp = opcode i ∧ t.held = none ∧ t.getSuspended = false ∧ t.inRead = s.inRead ∧ t.queue = s.queue
    ∧ t.vHist = s.vHist ∧ t.rreqPos = s.rreqPos ∧ t.rreqLen = s.rreqLen ∧ t.rreqSeek = s.rreqSeek
    ∧ t.sourceId = s.sourceId ∧ t.sizeBytes = s.sizeBytes ∧ t.nextExpected.toInt ∈ [s.nextExpected.toInt, -1]

/-- 60_exceptions.md R352: while FAULTED a CMD write has no effect, an ARG write stores, a register read returns the
recorded value, a BAD_REG access records nothing, and until power-on reset every other register stays. -/
def Obligations.FaultedStateIsSticky : Prop :=
  ∀ s : State, s.lifeState = .faulted →
    (∀ w rest, s.inputs = issueMove w :: rest → step s = .next (s.afterMove rest))
    ∧ (∀ v rest, s.inputs = .regWrite 0x04 32 v :: rest → step s = .next { s.afterMove rest with arg0 := v })
    ∧ (∀ v rest, s.inputs = .regWrite 0x08 32 v :: rest → step s = .next { s.afterMove rest with arg1 := v })
    ∧ (∀ v rest, s.inputs = .regWrite 0x0C 32 v :: rest → step s = .next { s.afterMove rest with arg2 := v })
    ∧ (∀ v rest, s.inputs = .regWrite 0x10 32 v :: rest → step s = .next { s.afterMove rest with arg3 := v })
    ∧ (∀ o v rest, s.inputs = .regRead o 32 :: rest → o.toNat % 4 = 0 → s.registerValue o = some v →
        step s = .next { s.afterMove rest with hostWord := some v })
    ∧ (∀ t, step s = .next t → (∀ rest, s.inputs ≠ .powerOn :: rest) →
        t = { s with
          arg0 := t.arg0
          arg1 := t.arg1
          arg2 := t.arg2
          arg3 := t.arg3
          inputs := t.inputs
          hostWord := t.hostWord
          hostBytes := t.hostBytes
          freeTick := t.freeTick })

/-- 10_state.md R76: the value every register takes after power-on reset, from whatever state it is applied in. -/
def Obligations.PowerOnResetGivesTheResetValues : Prop :=
  ∀ (s : State) (rest : List Move), s.inputs = .powerOn :: rest →
    ∃ t, step s = .next t
      ∧ t.lifeState = .uninit ∧ t.inRead = false ∧ t.sizeBytes = 0 ∧ t.stateReserved = 0 ∧ t.wc = 0
      ∧ t.widthSet = false ∧ t.sourceId = 0 ∧ t.sourceSet = false ∧ t.stateSize = 0
      ∧ t.writePos = 0 ∧ t.writeLen = 0 ∧ t.readCursor = 0 ∧ t.nextExpected.toInt = -1
      ∧ t.arg0 = 0 ∧ t.arg1 = 0 ∧ t.arg2 = 0 ∧ t.arg3 = 0 ∧ t.res0 = 0 ∧ t.res1 = 0
      ∧ t.gWpos = 0 ∧ t.gWlen = 0 ∧ t.gPhase = false ∧ t.rreqPos = 0 ∧ t.rreqLen = 0 ∧ t.rreqSeek = false
      ∧ causeCode t.faultCause = 0 ∧ t.faultInfo0 = 0 ∧ t.faultInfo1 = 0 ∧ t.faultOp = 0
      ∧ t.queue = [] ∧ t.vOpen = false ∧ t.vEntropy = false ∧ t.hBuilt = false
      ∧ t.vOrder = 0 ∧ t.vPcount = 0 ∧ t.vChannels = 0 ∧ t.vVersion = 0 ∧ t.vLength = 0
      ∧ t.vDecPos = 0 ∧ t.vByteCursor = 0 ∧ t.vBitPos = 0 ∧ t.vSkipBase = 0 ∧ t.vSkipCount = 0
      ∧ t.vHist = none ∧ (∀ k, t.hTab.context k = none) ∧ t.storageSize = 0 ∧ t.storage = []
      ∧ t.statusWord = 0x00000008

/-! ### The REG window and consumer reads -/

/-- The bit fields of STATUS, BUF_CONFIG and H_STATUS and the value of CAPACITY (30_encoding.md R127, 10_state.md R35),
and the bit fields of V_CONFIG (10_state.md R61). -/
def Obligations.StatusAndConfigShowTheirFields : Prop :=
  ∀ s : State,
    (s.statusWord.extractLsb' 0 2 = lifeCode s.lifeState
      ∧ s.statusWord.getLsbD 2 = s.inRead ∧ s.statusWord.getLsbD 3 = decide (s.writeLen.toInt = 0)
      ∧ s.statusWord.extractLsb' 4 4 = 0 ∧ s.statusWord.extractLsb' 8 8 = causeCode s.faultCause
      ∧ s.statusWord.extractLsb' 16 8 = s.faultOp
      ∧ (s.statusWord.extractLsb' 24 8).toNat = min s.queue.length 255)
    ∧ (s.bufConfigWord.extractLsb' 0 2 = s.wc ∧ s.bufConfigWord.getLsbD 2 = s.widthSet
      ∧ s.bufConfigWord.getLsbD 3 = s.sourceSet ∧ s.bufConfigWord.extractLsb' 4 28 = 0)
    ∧ ((s.widthSet = false → s.capacityWord = 0)
      ∧ (s.widthSet = true → s.capacityWord.toNat = s.sizeBytes.toNat / 2 ^ s.wc.toNat))
    ∧ (s.hStatusWord.getLsbD 0 = s.hBuilt ∧ s.hStatusWord.extractLsb' 1 31 = 0)
    ∧ (s.vConfigWord.extractLsb' 0 4 = s.vOrder ∧ s.vConfigWord.extractLsb' 4 5 = s.vPcount
      ∧ (1 ≤ s.vChannels.toNat ∧ s.vChannels.toNat ≤ 2 →
          (bitOf (s.vConfigWord.getLsbD 9) : Int) = s.vChannels.toNat - 1)
      ∧ s.vConfigWord.getLsbD 10 = s.vEntropy ∧ s.vConfigWord.getLsbD 11 = s.vOpen
      ∧ s.vConfigWord.extractLsb' 12 4 = 0 ∧ s.vConfigWord.extractLsb' 16 16 = s.vVersion)

/-- 20_memory.md R92: a REG access that is not 32 bits wide, or not at a multiple of 4, raises BAD_REG with the
offset and the width (recorded with FAULT_OP = 0, 60_exceptions.md R350). That the width is in bits, and that this check
comes before the register map's, is the model's reading (assumption 13, DEDUCED). -/
def Obligations.MisshapenRegisterAccessFaults : Prop :=
  ∀ (s : State) (offset : BitVec 8) (width : Nat) (rest : List Move), s.lifeState ≠ .faulted →
    (width ≠ 32 ∨ offset.toNat % 4 ≠ 0) →
    (s.inputs = .regRead offset width :: rest →
      step s = .next (State.raise { s.afterMove rest with hostWord := none } 0 ⟨.badReg, offset.toNat, width⟩))
    ∧ (∀ v, s.inputs = .regWrite offset width v :: rest → s.writeWaits offset = false →
        step s = .next ((s.afterMove rest).raise 0 ⟨.badReg, offset.toNat, width⟩))

namespace Sys2Proof.Machine

/-- The registers of the REG window a read may name, with the value each shows (30_encoding.md R127). -/
abbrev State.readableRegisters (s : State) : List (BitVec 8 × Word) :=
  [(0x04#8, s.arg0), (0x08#8, s.arg1), (0x0C#8, s.arg2), (0x10#8, s.arg3), (0x14#8, s.res0), (0x18#8, s.res1),
    (0x1C#8, s.statusWord), (0x20#8, s.faultInfo0), (0x24#8, s.faultInfo1), (0x28#8, s.writePos),
    (0x2C#8, s.writeLen), (0x30#8, s.readCursor), (0x34#8, s.nextExpected), (0x38#8, s.capacityWord),
    (0x3C#8, s.bufConfigWord), (0x40#8, s.sizeBytes), (0x44#8, s.stateReserved), (0x48#8, s.stateSize),
    (0x4C#8, s.sourceId), (0x50#8, s.rreqPos), (0x54#8, s.rreqLen), (0x58#8, BitVec.ofNat 32 (bitOf s.rreqSeek))]
  ++ [(0x80#8, s.vConfigWord), (0x84#8, s.vLength), (0x88#8, s.vDecPos), (0x8C#8, s.vByteCursor),
    (0x90#8, s.vBitPos), (0x94#8, s.vSkipBase), (0x98#8, s.vSkipCount), (0x9C#8, s.hStatusWord)]

end Sys2Proof.Machine

/-- The register map of 30_encoding.md R127: a read of each listed register returns it and changes nothing else; an
unlisted offset and CMD fault with BAD_REG 0; a write of ARG0 to ARG3 stores; a write to a register that is not ARG0 to
ARG3 or CMD faults with BAD_REG 1. -/
def Obligations.RegisterAccessFollowsTheMap : Prop :=
  ∀ (s : State) (offset : BitVec 8) (rest : List Move), s.lifeState ≠ .faulted → offset.toNat % 4 = 0 →
    (s.inputs = .regRead offset 32 :: rest →
      (∀ v, (offset, v) ∈ s.readableRegisters →
        step s = .next { s.afterMove rest with hostWord := some v })
      ∧ ((offset = 0 ∨ 0x58 < offset.toNat ∧ offset.toNat < 0x80 ∨ 0x9C < offset.toNat) →
          step s = .next (State.raise { s.afterMove rest with hostWord := none } 0 ⟨.badReg, offset.toNat, 0⟩)))
    ∧ (∀ v, s.inputs = .regWrite offset 32 v :: rest → s.writeWaits offset = false →
        (offset = 0x04 → step s = .next { s.afterMove rest with arg0 := v })
        ∧ (offset = 0x08 → step s = .next { s.afterMove rest with arg1 := v })
        ∧ (offset = 0x0C → step s = .next { s.afterMove rest with arg2 := v })
        ∧ (offset = 0x10 → step s = .next { s.afterMove rest with arg3 := v })
        ∧ (0x10 < offset.toNat → step s = .next ((s.afterMove rest).raise 0 ⟨.badReg, offset.toNat, 1⟩)))

/-- 20_memory.md R105: a consumer read inside STORAGE faults with HAZARD where a pending job's range overlaps, else
with UNWRITTEN where a byte holds no value, else returns the bytes and changes nothing. -/
def Obligations.ConsumerReadReturnsOnlyFinishedBytes : Prop :=
  ∀ (s : State) (off n : Nat) (rest : List Move), s.lifeState ≠ .faulted → s.inputs = .consumerRead off n :: rest →
    off + n ≤ s.storageSize →
    (¬ s.noHazard off (off + n) →
      ∃ j ∈ s.queue, max j.lo off < min j.hi (off + n)
        ∧ step s = .next (State.raise { s.afterMove rest with hostBytes := none } 0 ⟨.hazard, off, j.lo⟩))
    ∧ (s.noHazard off (off + n) → (∃ k < n, Memory.read s.storage (off + k) = none) →
        step s = .next (State.raise { s.afterMove rest with hostBytes := none } 0 ⟨.unwritten, off, n⟩))
    ∧ (s.noHazard off (off + n) → (∀ k < n, Memory.read s.storage (off + k) ≠ none) →
        ∃ bs : List Byte, bs.length = n ∧ (∀ k < n, Memory.read s.storage (off + k) = bs[k]?)
          ∧ step s = .next { s.afterMove rest with hostBytes := some bs })

/-! ### Lifecycle and configuration -/

/-- 40_sample_buffer.md R150: INIT binds storage and flushes, or faults with CONFIG. -/
def Obligations.InitCreatesTheBufferOrFaults : Prop :=
  ∀ s : State, s.inRead = false →
    (s.lifeState = .ready → exec .init s = .next (s.raise 0x01 ⟨.config, 0x01, 1⟩))
    ∧ (s.lifeState = .uninit →
        (s.arg0.toNat = 0 ∨ s.arg0.toNat % 8 ≠ 0 →
          exec .init s = .next (s.raise 0x01 ⟨.config, s.arg0.toNat, 8⟩))
        ∧ (s.arg0.toNat ≠ 0 → s.arg0.toNat % 8 = 0 →
          (s.arg1.toNat % 16 ≠ 0 → exec .init s = .next (s.raise 0x01 ⟨.config, s.arg1.toNat, 16⟩))
          ∧ (s.arg1.toNat % 16 = 0 → posMax < s.arg0.toNat + s.arg1.toNat →
              exec .init s = .next (s.raise 0x01 ⟨.config, s.arg0.toNat + s.arg1.toNat, posMax⟩))
          ∧ (s.arg1.toNat % 16 = 0 → s.arg0.toNat + s.arg1.toNat ≤ posMax →
              exec .init s = .next { s with
                storage := []
                sizeBytes := s.arg0
                stateReserved := s.arg1
                writePos := 0
                writeLen := 0
                readCursor := 0
                nextExpected := -1
                widthSet := false
                sourceSet := false
                sourceId := 0
                stateSize := 0
                vOpen := false
                hBuilt := false
                queue := []
                lifeState := .ready })))

/-- 40_sample_buffer.md R152, 10_state.md R78: CLOSE waits for the queue, then every register holds its power-on value
and the storage is released. -/
def Obligations.CloseReturnsToPowerOn : Prop :=
  ∀ s : State,
    (s.hostMayIssue → s.queue ≠ [] → exec .close s = .next { s with held := some .close })
    ∧ (s.hostMayIssue → s.queue = [] → exec .close s = .next { State.reset with
        codecVersions := s.codecVersions
        media := s.media
        inputs := s.inputs
        hostWord := s.hostWord
        hostBytes := s.hostBytes
        freeTick := s.freeTick })
    ∧ (s.lifeState = .ready → s.held = some .close → s.queue = [] → s.inputs = [] →
        step s = .next { State.reset with
          codecVersions := s.codecVersions
          media := s.media
          hostWord := s.hostWord
          hostBytes := s.hostBytes
          freeTick := s.freeTick + 1 })

/-- 40_sample_buffer.md R155: SET_WIDTH. -/
def Obligations.SetWidthSetsTheClassOrFaults : Prop :=
  ∀ s : State, s.hostMayIssue →
    (s.arg0.extractLsb' 2 30 ≠ 0 ∨ s.arg0.extractLsb' 0 2 = 3 →
      exec .setWidth s = .next (s.raise 0x03 ⟨.badWidth, s.arg0.toNat, 0⟩))
    ∧ (s.arg0.extractLsb' 2 30 = 0 → s.arg0.extractLsb' 0 2 ≠ 3 →
        (¬ (s.writePos = 0 ∧ s.writeLen = 0 ∧ s.readCursor = 0 ∧ s.nextExpected = -1) →
          exec .setWidth s = .next (s.raise 0x03 ⟨.notFlushed, s.writeLen.toInt, s.nextExpected.toInt⟩))
        ∧ (s.writePos = 0 → s.writeLen = 0 → s.readCursor = 0 → s.nextExpected = -1 →
          exec .setWidth s = .next { s with wc := s.arg0.extractLsb' 0 2, widthSet := true, vOpen := false }))

/-- 40_sample_buffer.md R160: SET_SOURCE faults, waits for the queue, or binds the source and clears the state
block's bytes and V_HIST. -/
def Obligations.SetSourceBindsTheSourceOrFaults : Prop :=
  ∀ s : State, s.hostMayIssue →
    (¬ (s.writePos = 0 ∧ s.writeLen = 0 ∧ s.readCursor = 0 ∧ s.nextExpected = -1) →
      exec .setSource s = .next (s.raise 0x04 ⟨.notFlushed, s.writeLen.toInt, s.nextExpected.toInt⟩))
    ∧ (s.writePos = 0 → s.writeLen = 0 → s.readCursor = 0 → s.nextExpected = -1 →
        (s.arg1.toNat % 16 ≠ 0 → exec .setSource s = .next (s.raise 0x04 ⟨.stateSize, s.arg1.toNat, 16⟩))
        ∧ (s.arg1.toNat % 16 = 0 → s.stateReserved.toNat < s.arg1.toNat →
            exec .setSource s = .next (s.raise 0x04 ⟨.stateSize, s.arg1.toNat, s.stateReserved.toNat⟩))
        ∧ (s.arg1.toNat % 16 = 0 → s.arg1.toNat ≤ s.stateReserved.toNat →
            (s.queue ≠ [] → exec .setSource s = .next { s with held := some (.setSource s.arg0 s.arg1) })
            ∧ (s.queue = [] → ∃ m, exec .setSource s = .next { s with
                  storage := m
                  sourceId := s.arg0
                  stateSize := s.arg1
                  sourceSet := decide (s.arg0 ≠ 0)
                  vOpen := false
                  hBuilt := false
                  vHist := none }
                ∧ ∀ a, Memory.read m a
                    = if s.sizeBytes.toNat ≤ a ∧ a < s.sizeBytes.toNat + s.stateReserved.toNat then none
                      else Memory.read s.storage a)))

/-! ### GET -/

/-- 40_sample_buffer.md R170: GET's checks, in their order. The second value 1 of a negative length's BAD_ARG is R170's,
where 30_encoding.md R121 says 0: assumption 26 (DEDUCED). -/
def Obligations.GetChecksItsOperandsInOrder : Prop :=
  ∀ s : State, s.hostMayIssue →
    (s.arg0.toInt < 0 → exec .get s = .next (s.raise 0x05 ⟨.badArg, s.arg0.toInt, 0⟩))
    ∧ (0 ≤ s.arg0.toInt → s.arg1.toInt < 0 → exec .get s = .next (s.raise 0x05 ⟨.badArg, s.arg1.toInt, 1⟩))
    ∧ (0 ≤ s.arg0.toInt → 0 ≤ s.arg1.toInt →
        (posMax < s.arg0.toInt + s.arg1.toInt →
          exec .get s = .next (s.raise 0x05 ⟨.badArg, s.arg0.toInt, s.arg1.toInt⟩))
        ∧ (s.arg0.toInt + s.arg1.toInt ≤ posMax →
          (s.widthSet = false → exec .get s = .next (s.raise 0x05 ⟨.notConfigured, 0, 0⟩))
          ∧ (s.widthSet = true → s.sourceSet = false → exec .get s = .next (s.raise 0x05 ⟨.notConfigured, 1, 0⟩))))

/-- 40_sample_buffer.md R180, 43_source_contract.md R334: a GET of an empty buffer, or of a position outside the
window that is not NEW, flushes the cursors once and presents one read; it seeks exactly when the position is not
NEW. With B = 1 an odd position starts one sample early. -/
def Obligations.DiscontinuousGetFlushesAndRequests : Prop :=
  ∀ (s : State) (wp len : Int), s.getPasses →
    (s.writeLen.toInt = 0
      ∨ ((s.arg0.toInt < s.writePos.toInt ∨ s.writePos.toInt + s.writeLen.toInt ≤ s.arg0.toInt)
          ∧ s.arg0.toInt ≠ s.nextExpected.toInt)) →
    wp = (if s.bytesPerSample = 1 ∧ s.arg0.toInt % 2 = 1 then s.arg0.toInt - 1 else s.arg0.toInt) →
    isRoundUp len (s.arg1.toInt + (s.arg0.toInt - wp)) s.granularity →
    (wp + len ≤ posMax →
      exec .get s = .next { s with
        gWpos := s.arg0
        gWlen := s.arg1
        writePos := BitVec.ofInt 32 wp
        writeLen := 0
        readCursor := 0
        nextExpected := -1
        gPhase := true
        rreqPos := BitVec.ofInt 32 wp
        rreqLen := BitVec.ofInt 32 len
        rreqSeek := decide (s.arg0.toInt ≠ s.nextExpected.toInt)
        inRead := true
        getSuspended := true
        srcPhase := .start })
    ∧ (posMax < wp + len →
        exec .get s = .next (State.raise { s with
          gWpos := s.arg0
          gWlen := s.arg1
          writePos := BitVec.ofInt 32 wp
          writeLen := 0
          readCursor := 0
          nextExpected := -1 } 0x05 ⟨.badArg, wp, len⟩))

/-- 40_sample_buffer.md R185: a continuous GET of more than is resident marks READ_CURSOR and requests the missing
tail at the window's end, without seeking; where the request would end beyond POS_MAX it faults with BAD_ARG. -/
def Obligations.ContinuousGetRequestsTheMissingTail : Prop :=
  ∀ (s : State) (len : Int), s.getPasses → s.getSuspended = false → s.windowInvariant → s.writeLen.toInt ≠ 0 →
    s.writePos.toInt ≤ s.arg0.toInt →
    (s.arg0.toInt < s.writePos.toInt + s.writeLen.toInt ∨ s.arg0.toInt = s.nextExpected.toInt) →
    s.writePos.toInt + s.writeLen.toInt < s.arg0.toInt + s.arg1.toInt →
    isRoundUp len (s.arg0.toInt + s.arg1.toInt - (s.writePos.toInt + s.writeLen.toInt)) s.granularity →
    (s.writePos.toInt + s.writeLen.toInt + len ≤ posMax →
      exec .get s = .next { s with
        gWpos := s.arg0
        gWlen := s.arg1
        readCursor := BitVec.ofInt 32 (s.arg0.toInt - s.writePos.toInt)
        gPhase := false
        rreqPos := BitVec.ofInt 32 (s.writePos.toInt + s.writeLen.toInt)
        rreqLen := BitVec.ofInt 32 len
        rreqSeek := false
        inRead := true
        getSuspended := true
        srcPhase := .start })
    ∧ (posMax < s.writePos.toInt + s.writeLen.toInt + len →
        exec .get s = .next (State.raise { s with
          gWpos := s.arg0
          gWlen := s.arg1
          readCursor := BitVec.ofInt 32 (s.arg0.toInt - s.writePos.toInt) } 0x05
            ⟨.badArg, s.writePos.toInt + s.writeLen.toInt, len⟩))

/-- 43_source_contract.md R336, 40_sample_buffer.md R185 and R188: a GET whose range lies inside the resident window
presents no read, an empty range at the window's end included; it returns the whole length at the byte offset of the
position. -/
def Obligations.ResidentGetPresentsNoRead : Prop :=
  ∀ s : State, s.getPasses → s.windowInvariant → s.writeLen.toInt ≠ 0 → s.writePos.toInt ≤ s.arg0.toInt →
    (s.arg0.toInt < s.writePos.toInt + s.writeLen.toInt ∨ s.arg0.toInt = s.nextExpected.toInt) →
    s.arg0.toInt + s.arg1.toInt ≤ s.writePos.toInt + s.writeLen.toInt →
    exec .get s = .next { s with
      gWpos := s.arg0
      gWlen := s.arg1
      readCursor := BitVec.ofInt 32 (s.arg0.toInt - s.writePos.toInt)
      res0 := BitVec.ofInt 32 ((s.arg0.toInt - s.writePos.toInt) * s.bytesPerSample)
      res1 := s.arg1 }

/-- 40_sample_buffer.md R220, R180, R185, R188: READ_DONE ends the read; the suspended GET then sets NEW to the
window's end and returns the offset of its position and the length available, 0 at an underrun (60_exceptions.md R347). -/
def Obligations.ReadDoneLetsTheGetFinish : Prop :=
  ∀ (s : State) (rest : List Move),
    (s.sourceMayIssue → exec .readDone s = .next { s with inRead := false })
    ∧ (s.lifeState = .ready → s.inRead = false → s.getSuspended = true → s.held = none →
        s.controlPathIsNext rest ∨ (s.inputs = rest ∧ ∃ w moves, rest = issueMove w :: moves) →
        s.windowInvariant → s.writePos.toInt ≤ s.gWpos.toInt → 0 ≤ s.gWlen.toInt →
        (s.gWpos.toInt - s.writePos.toInt) * s.bytesPerSample < 2 ^ 32 →
        s.writePos.toInt + s.writeLen.toInt ≤ posMax →
        step s = .next { s with
          inputs := rest
          freeTick := s.freeTick + 1
          getSuspended := false
          nextExpected := BitVec.ofInt 32 (s.writePos.toInt + s.writeLen.toInt)
          res0 := BitVec.ofInt 32 ((s.gWpos.toInt - s.writePos.toInt) * s.bytesPerSample)
          res1 := BitVec.ofInt 32
            (max 0 (min s.gWlen.toInt (s.writePos.toInt + s.writeLen.toInt - s.gWpos.toInt))) })

/-- 43_source_contract.md R332, for a GET that left the window's end at or after its position: the next GET at its
position plus its returned length presents no seek. `s` is the state that GET left: NEW is the window's end, and RES1
the length returned. -/
def Obligations.NextGetInSequenceNeverSeeks : Prop :=
  ∀ s t : State, s.getPasses → s.betweenCommands → s.windowInvariant → s.nextExpected.toInt ≠ -1 →
    s.writePos.toInt ≤ s.gWpos.toInt → s.gWpos.toInt ≤ s.writePos.toInt + s.writeLen.toInt → 0 ≤ s.gWlen.toInt →
    s.res1.toInt = min s.gWlen.toInt (s.writePos.toInt + s.writeLen.toInt - s.gWpos.toInt) →
    s.arg0.toInt = s.gWpos.toInt + s.res1.toInt → exec .get s = .next t → t.inRead = true → t.rreqSeek = false

/-! ### DISCARD, FLUSH, APPEND, UNDO -/

/-- 40_sample_buffer.md R205: DISCARD. A negative position faults; a position at or before WRITE_POS changes
nothing; otherwise the window loses idx samples, at most all and an even number where B = 1: a no-op when idx is 0,
held while a job is pending, and else the retained samples move to offset 0. -/
def Obligations.DiscardKeepsTheTail : Prop :=
  ∀ (s : State) (idx : Nat), s.hostMayIssue → s.windowInvariant →
    (s.arg0.toInt < 0 → exec .discard s = .next (s.raise 0x06 ⟨.badArg, s.arg0.toInt, 0⟩))
    ∧ (0 ≤ s.arg0.toInt → s.arg0.toInt ≤ s.writePos.toInt → exec .discard s = .next s)
    ∧ (s.writePos.toInt < s.arg0.toInt →
        (idx : Int) = (if s.bytesPerSample = 1
          then min (s.arg0.toInt - s.writePos.toInt) s.writeLen.toInt
            - min (s.arg0.toInt - s.writePos.toInt) s.writeLen.toInt % 2
          else min (s.arg0.toInt - s.writePos.toInt) s.writeLen.toInt) →
        (idx = 0 → exec .discard s = .next s)
        ∧ (idx ≠ 0 → s.queue ≠ [] → exec .discard s = .next { s with held := some (.discard s.arg0.toInt) })
        ∧ (idx ≠ 0 → s.queue = [] → s.writePos.toInt + idx ≤ posMax →
            ∃ m, exec .discard s = .next { s with
                storage := m
                writePos := BitVec.ofInt 32 (s.writePos.toInt + idx)
                writeLen := BitVec.ofInt 32 (s.writeLen.toInt - idx)
                readCursor := BitVec.ofInt 32 (max (s.readCursor.toInt - idx) 0) }
              ∧ ∀ a : Nat, Memory.read m a
                  = if (a : Int) < (s.writeLen.toInt - idx) * s.bytesPerSample
                    then Memory.read s.storage (idx * s.bytesPerSample + a)
                    else if (a : Int) < s.writeLen.toInt * s.bytesPerSample then none
                    else Memory.read s.storage a))

/-- 40_sample_buffer.md R210: FLUSH sets the cursors to their flush values, makes the PCM bytes hold no value, and
neither drains nor touches the VADPCM history. -/
def Obligations.FlushEmptiesTheBuffer : Prop :=
  ∀ s : State, s.hostMayIssue →
    ∃ m, exec .flush s = .next { s with
        storage := m
        writePos := 0
        writeLen := 0
        readCursor := 0
        nextExpected := -1 }
      ∧ ∀ a, Memory.read m a = if a < s.sizeBytes.toNat then none else Memory.read s.storage a

/-- 20_memory.md R101, 70_reset_and_hazards.md R395: with no move from outside, a DRAIN held on n jobs is lifted
within n + 1 steps, by the offload engine alone, or a job's fault stops the block. That the engine takes those steps is
assumption 2 (DEDUCED). -/
def Obligations.DrainEndsByTheEngineAlone : Prop :=
  ∀ s : State, s.lifeState = .ready → s.held = some .drain → s.inputs = [] →
    ∃ (k : Nat) (t : State), k ≤ s.queue.length + 1 ∧ Host.Core.run core k s = .next t
      ∧ ((t.held = none ∧ t.queue = [] ∧ t.lifeState = .ready) ∨ t.lifeState = .faulted)

/-- 40_sample_buffer.md R190, where no compaction is needed: APPEND reserves the tail, its bytes hold no value, RES0
is its offset and NEW is unchanged; a misaligned or in-flight tail faults. -/
def Obligations.AppendReservesTheTail : Prop :=
  ∀ s : State, s.sourceMayIssue → s.windowInvariant →
    (s.arg0.toInt < 0 → exec .append s = .next (s.raise 0x10 ⟨.badArg, s.arg0.toInt, 0⟩))
    ∧ (0 ≤ s.arg0.toInt → s.writeLen.toInt + s.arg0.toInt ≤ s.capacity →
        (s.windowEnd % 8 ≠ 0 → exec .append s = .next (s.raise 0x10 ⟨.misaligned, s.windowEnd, s.arg0.toInt⟩))
        ∧ (s.windowEnd % 8 = 0 →
          (¬ s.noHazard s.windowEnd.toNat (s.windowEnd + s.arg0.toInt * s.bytesPerSample).toNat →
            ∃ j ∈ s.queue,
              max j.lo s.windowEnd.toNat < min j.hi (s.windowEnd + s.arg0.toInt * s.bytesPerSample).toNat
                ∧ exec .append s = .next (s.raise 0x10 ⟨.hazard, s.windowEnd, j.lo⟩))
          ∧ (s.noHazard s.windowEnd.toNat (s.windowEnd + s.arg0.toInt * s.bytesPerSample).toNat →
            ∃ m, exec .append s = .next { s with
                storage := m
                writeLen := BitVec.ofInt 32 (s.writeLen.toInt + s.arg0.toInt)
                res0 := BitVec.ofInt 32 s.windowEnd }
              ∧ ∀ a : Nat, Memory.read m a
                  = if s.windowEnd ≤ a ∧ (a : Int) < s.windowEnd + s.arg0.toInt * s.bytesPerSample then none
                    else Memory.read s.storage a)))

/-- 40_sample_buffer.md R195, R190: an APPEND that does not fit first discards the window before READ_CURSOR, rounded
down to G samples, waiting for the queue where there is something to discard; then it appends, or faults with CAPACITY
or with MISALIGNED in the compacted state. -/
def Obligations.AppendCompactsWhenItDoesNotFit : Prop :=
  ∀ (s : State) (keep : Nat), s.sourceMayIssue → s.windowInvariant →
    0 ≤ s.arg0.toInt → (s.capacity : Int) < s.writeLen.toInt + s.arg0.toInt →
    (keep : Int) = s.readCursor.toInt - s.readCursor.toInt % s.granularity →
    (keep ≠ 0 → s.queue ≠ [] → exec .append s = .next { s with held := some (.append s.arg0.toInt) })
    ∧ (keep = 0 ∨ s.queue = [] →
        ((s.capacity : Int) < s.writeLen.toInt - keep + s.arg0.toInt →
          ∃ t, exec .append s = .next t ∧ t.lifeState = .faulted ∧ t.faultCause = .capacity ∧ t.faultOp = 0x10
            ∧ t.faultInfo0.toNat = s.writeLen.toInt - keep + s.arg0.toInt ∧ t.faultInfo1.toNat = s.capacity
            ∧ t.writePos.toInt = s.writePos.toInt + keep ∧ t.writeLen.toInt = s.writeLen.toInt - keep)
        ∧ (s.writeLen.toInt - keep + s.arg0.toInt ≤ s.capacity →
            (s.writeLen.toInt - keep) * s.bytesPerSample % 8 ≠ 0 →
            ∃ m, exec .append s = .next (State.raise { s with
                storage := m
                writePos := BitVec.ofInt 32 (s.writePos.toInt + keep)
                writeLen := BitVec.ofInt 32 (s.writeLen.toInt - keep)
                readCursor := BitVec.ofInt 32 (s.readCursor.toInt - keep) } 0x10
                  ⟨.misaligned, (s.writeLen.toInt - keep) * s.bytesPerSample, s.arg0.toInt⟩)
              ∧ ∀ a : Nat, Memory.read m a
                  = if (a : Int) < (s.writeLen.toInt - keep) * s.bytesPerSample
                    then Memory.read s.storage (keep * s.bytesPerSample + a)
                    else if (a : Int) < s.writeLen.toInt * s.bytesPerSample then none
                    else Memory.read s.storage a)
        ∧ (s.writeLen.toInt - keep + s.arg0.toInt ≤ s.capacity →
            (s.writeLen.toInt - keep) * s.bytesPerSample % 8 = 0 →
            ∃ m, exec .append s = .next { s with
                storage := m
                writePos := BitVec.ofInt 32 (s.writePos.toInt + keep)
                writeLen := BitVec.ofInt 32 (s.writeLen.toInt - keep + s.arg0.toInt)
                readCursor := BitVec.ofInt 32 (s.readCursor.toInt - keep)
                res0 := BitVec.ofInt 32 ((s.writeLen.toInt - keep) * s.bytesPerSample) }
              ∧ ∀ a : Nat, Memory.read m a
                  = if (a : Int) < (s.writeLen.toInt - keep) * s.bytesPerSample
                    then Memory.read s.storage (keep * s.bytesPerSample + a)
                    else if (a : Int)
                        < max s.writeLen.toInt (s.writeLen.toInt - keep + s.arg0.toInt) * s.bytesPerSample then none
                    else Memory.read s.storage a))

/-- 43_source_contract.md R338, 20_memory.md R89: every APPEND that completes returns a multiple of 8, be it at once or
in a later step, once what its compaction waits for has ended. -/
def Obligations.AppendReturnsAlignedOffsets : Prop :=
  (∀ s t : State, s.sourceMayIssue → s.windowInvariant → s.held = none →
    exec .append s = .next t → t.lifeState = .ready → t.held = none → t.res0.toNat % 8 = 0)
  ∧ (∀ (s t : State) (wlen : Int), s.windowInvariant → s.held = some (.append wlen) →
    step s = .next t → t.lifeState = .ready → t.held = none → t.res0.toNat % 8 = 0)

/-- 40_sample_buffer.md R200: UNDO. -/
def Obligations.UndoRetractsTheTailOrFaults : Prop :=
  ∀ s : State, s.sourceMayIssue →
    (s.arg0.toInt < 0 → exec .undo s = .next (s.raise 0x11 ⟨.badArg, s.arg0.toInt, 0⟩))
    ∧ (0 ≤ s.arg0.toInt → s.writeLen.toInt < s.arg0.toInt →
        exec .undo s = .next (s.raise 0x11 ⟨.undoUnderflow, s.arg0.toInt, s.writeLen.toInt⟩))
    ∧ (0 ≤ s.arg0.toInt → s.arg0.toInt ≤ s.writeLen.toInt →
        ∃ m, exec .undo s = .next { s with
            storage := m
            writeLen := BitVec.ofInt 32 (s.writeLen.toInt - s.arg0.toInt)
            readCursor := BitVec.ofInt 32 (min s.readCursor.toInt (s.writeLen.toInt - s.arg0.toInt)) }
          ∧ ∀ a : Nat, Memory.read m a
              = if (s.writeLen.toInt - s.arg0.toInt) * s.bytesPerSample ≤ a
                  ∧ (a : Int) < s.writeLen.toInt * s.bytesPerSample
                then none else Memory.read s.storage a)

/-! ### SCOPY -/

/-- 40_sample_buffer.md R222: SCOPY's checks in their order, and its copy. That STREAM_IO names the start of the access
is assumption 11, and the second value 2 of a negative count's BAD_ARG, where 30_encoding.md R121 says 0, assumption 26
(both DEDUCED). -/
def Obligations.ScopyCopiesStreamBytesOrFaults : Prop :=
  ∀ s : State, s.sourceMayIssue → s.windowInvariant →
    (s.arg2.toInt < 0 → exec .scopy s = .next (s.raise 0x13 ⟨.badArg, s.arg2.toInt, 2⟩))
    ∧ (0 ≤ s.arg2.toInt →
        (s.windowEnd < s.arg0.toNat + s.arg2.toInt →
          exec .scopy s = .next (s.raise 0x13 ⟨.badArg, s.arg0.toNat, s.arg2.toInt⟩))
        ∧ (s.arg0.toNat + s.arg2.toInt ≤ s.windowEnd →
          (¬ s.noHazard s.arg0.toNat (s.arg0.toNat + s.arg2.toInt.toNat) →
            ∃ j ∈ s.queue, max j.lo s.arg0.toNat < min j.hi (s.arg0.toNat + s.arg2.toInt.toNat)
              ∧ exec .scopy s = .next (s.raise 0x13 ⟨.hazard, s.arg0.toNat, j.lo⟩))
          ∧ (s.noHazard s.arg0.toNat (s.arg0.toNat + s.arg2.toInt.toNat) →
            (s.arg2.toInt ≠ 0 → s.stream.length < s.arg1.toNat + s.arg2.toInt →
              exec .scopy s = .next (s.raise 0x13 ⟨.streamIo, s.arg1.toNat, s.stream.length⟩))
            ∧ (s.arg2.toInt = 0 ∨ s.arg1.toNat + s.arg2.toInt ≤ s.stream.length →
              ∃ m, exec .scopy s = .next { s with storage := m }
                ∧ ∀ a : Nat, Memory.read m a
                    = if s.arg0.toNat ≤ a ∧ (a : Int) < s.arg0.toNat + s.arg2.toInt
                      then s.stream[s.arg1.toNat + (a - s.arg0.toNat)]? else Memory.read s.storage a))))

/-! ### The VADPCM unit -/

namespace Sys2Proof.Machine

/-- The operands, the state and the HEADER with which VOPEN completes (41_vadpcm.md R230): order `o`, predictor count
`pc`, channels `ch`, and the skip count the HEADER holds. -/
abbrev State.vopenPasses (s : State) (o pc ch count : Nat) : Prop :=
  s.hostMayIssue ∧ s.arg0.extractLsb' 11 5 = 0
  ∧ (s.arg0.extractLsb' 0 4).toNat = o ∧ 1 ≤ o ∧ o ≤ 8
  ∧ (s.arg0.extractLsb' 4 5).toNat = pc ∧ 1 ≤ pc ∧ pc ≤ 16
  ∧ ch = (if s.arg0.getLsbD 9 then 2 else 1)
  ∧ s.arg0.extractLsb' 16 16 ∈ s.codecVersions ∧ 0 ≤ s.arg1.toInt
  ∧ s.widthSet = true ∧ s.sourceSet = true ∧ s.flushed = true ∧ s.wc.toNat = ch
  ∧ s.stateSize.toNat = 16 * o * ch + 16
  ∧ (s.arg0.getLsbD 10 = true → pc * o * 16 + 72 ≤ s.header.length)
  ∧ pc * o * 16 + s.arg2.toNat + 4 ≤ s.header.length
  ∧ beNat ((s.header.drop (pc * o * 16 + s.arg2.toNat)).take 4) = count
  ∧ pc * o * 16 + s.arg2.toNat + 4 + count * skipEntrySize ch o ≤ s.header.length
  ∧ pc * o * 16 + s.arg2.toNat < 2 ^ 32

/-- VOPEN's checks in their order, each with the fault it raises (41_vadpcm.md R230). -/
abbrev State.vopenChecks (s : State) : List (Prop × Trap) :=
  let o := (s.arg0.extractLsb' 0 4).toNat
  let pc := (s.arg0.extractLsb' 4 5).toNat
  let ch := if s.arg0.getLsbD 9 then 2 else 1
  let version := s.arg0.extractLsb' 16 16
  let sb := pc * o * 16 + s.arg2.toNat
  let tableEnd := sb + 4 + beNat ((s.header.drop sb).take 4) * skipEntrySize ch o
  [(s.arg0.extractLsb' 11 5 ≠ 0, ⟨.config, s.arg0.toNat, 0⟩),
    (o < 1 ∨ 8 < o, ⟨.config, o, 8⟩),
    (pc < 1 ∨ 16 < pc, ⟨.config, pc, 16⟩),
    (version ∉ s.codecVersions, ⟨.config, version.toNat, 0⟩),
    (s.arg1.toInt < 0, ⟨.badArg, s.arg1.toInt, 1⟩),
    (s.widthSet = false, ⟨.notConfigured, 0, 0⟩),
    (s.sourceSet = false, ⟨.notConfigured, 1, 0⟩)]
  ++ [(s.flushed = false, ⟨.notFlushed, s.writeLen.toInt, s.nextExpected.toInt⟩),
    (s.wc.toNat ≠ ch, ⟨.config, s.wc.toNat, ch⟩),
    (s.stateSize.toNat ≠ 16 * o * ch + 16, ⟨.stateSize, s.stateSize.toNat, (16 * o * ch + 16 : Nat)⟩),
    (s.header.length < pc * o * 16, ⟨.config, (pc * o * 16 : Nat), s.header.length⟩),
    (s.arg0.getLsbD 10 = true ∧ s.header.length < pc * o * 16 + 72,
      ⟨.config, (pc * o * 16 + 72 : Nat), s.header.length⟩),
    (s.header.length < sb + 4, ⟨.config, sb, s.header.length⟩),
    (s.header.length < tableEnd, ⟨.config, tableEnd, s.header.length⟩)]

/-- Skip table entry e matches an offset: its first four bytes hold it (41_vadpcm.md R238). -/
abbrev State.skipMatches (s : State) (e : Nat) (offset : Int) : Prop :=
  (beNat ((s.header.drop (s.skipEntryAt e)).take 4) : Int) = offset

/-- The whole skip table lies in HEADER. -/
abbrev State.skipTableFits (s : State) : Prop :=
  s.skipEntryAt s.vSkipCount.toNat ≤ s.header.length

end Sys2Proof.Machine

/-- 41_vadpcm.md R230: the first of VOPEN's checks that fails decides its fault, and nothing else changes. The second
value 1 of a negative length's BAD_ARG, where 30_encoding.md R121 says 0, is assumption 26, and that a HEADER read
beyond the end names its start, assumption 11 (both DEDUCED). -/
def Obligations.VopenChecksInOrder : Prop :=
  ∀ (s : State) (x : Trap), s.hostMayIssue → firstFailing s.vopenChecks x →
    exec .vopen s = .next (s.raise 0x20 x)

/-- 41_vadpcm.md R230: a VOPEN that passes its checks waits for the queue, holding the operands it latched, and then
opens the unit at position 0 with zero history. -/
def Obligations.VopenOpensAtPositionZero : Prop :=
  ∀ (s : State) (o pc ch count : Nat), s.vopenPasses o pc ch count →
    (s.queue ≠ [] → exec .vopen s = .next { s with
        held := some (.vopen {
          order := BitVec.ofNat 4 o
          pcount := BitVec.ofNat 5 pc
          channels := BitVec.ofNat 2 ch
          entropy := s.arg0.getLsbD 10
          version := s.arg0.extractLsb' 16 16
          length := s.arg1
          skipBase := pc * o * 16 + s.arg2.toNat
          skipCount := BitVec.ofNat 32 count }) })
    ∧ (s.queue = [] → exec .vopen s = .next { s with
        vOrder := BitVec.ofNat 4 o
        vPcount := BitVec.ofNat 5 pc
        vChannels := BitVec.ofNat 2 ch
        vEntropy := s.arg0.getLsbD 10
        vVersion := s.arg0.extractLsb' 16 16
        vLength := s.arg1
        vSkipBase := BitVec.ofNat 32 (pc * o * 16 + s.arg2.toNat)
        vSkipCount := BitVec.ofNat 32 count
        vHist := some (List.replicate ch (List.replicate o 0))
        vDecPos := 0
        vByteCursor := 0
        vBitPos := 0
        hBuilt := false
        vOpen := true })

/-- 41_vadpcm.md R240: VSEEK 0 resets the history and the cursors and never consults the skip table; a negative offset
and a closed unit fault; with a job pending it waits. -/
def Obligations.VseekZeroResetsTheDecoder : Prop :=
  ∀ s : State, s.sourceMayIssue →
    (s.arg0.toInt < 0 → exec .vseek s = .next (s.raise 0x21 ⟨.badArg, s.arg0.toInt, 0⟩))
    ∧ (0 ≤ s.arg0.toInt → s.vOpen = false → exec .vseek s = .next (s.raise 0x21 ⟨.notConfigured, 2, 0⟩))
    ∧ (0 ≤ s.arg0.toInt → s.vOpen = true → s.queue ≠ [] →
        exec .vseek s = .next { s with held := some (.vseek s.arg0.toInt) })
    ∧ (s.arg0.toInt = 0 → s.vOpen = true → s.queue = [] →
        exec .vseek s = .next { s with
          vHist := some (List.replicate s.vChannels.toNat (List.replicate s.vOrder.toNat 0))
          vByteCursor := 0
          vBitPos := 0
          vDecPos := 0 })

/-- 41_vadpcm.md R240, R238: a VSEEK to a tabulated offset on the frame grid restores the history, the bit position and
the cursors of the first matching entry; one to an offset that no entry holds faults. -/
def Obligations.VseekRestoresTheFirstMatchingEntry : Prop :=
  ∀ s : State, s.sourceMayIssue → 0 < s.arg0.toInt → s.vOpen = true → s.queue = [] → s.skipTableFits →
    ((∀ e < s.vSkipCount.toNat, ¬ s.skipMatches e s.arg0.toInt) →
      exec .vseek s = .next (s.raise 0x21 ⟨.seekUntabulated, s.arg0.toInt, s.vSkipCount.toNat⟩))
    ∧ (∀ e < s.vSkipCount.toNat, s.skipMatches e s.arg0.toInt →
        (∀ e' < e, ¬ s.skipMatches e' s.arg0.toInt) →
        (s.arg0.toInt % 16 ≠ 0 → exec .vseek s = .next (s.raise 0x21 ⟨.config, s.arg0.toInt, 16⟩))
        ∧ (s.arg0.toInt % 16 = 0 →
          ∃ h, exec .vseek s = .next { s with
              vHist := some h
              vBitPos := BitVec.ofNat 32 (beNat ((s.header.drop (s.skipEntryAt e + 4)).take 4))
              vDecPos := s.arg0
              vByteCursor := BitVec.ofInt 32 (s.arg0.toInt / 16 * 9 * s.vChannels.toNat) }
            ∧ h.length = s.vChannels.toNat
            ∧ ∀ c < s.vChannels.toNat, ∀ j < s.vOrder.toNat, (h.getD c [])[j]?
                = some (BitVec.ofNat 16
                    (beNat ((s.header.drop (s.skipEntryAt e + 8 + (c * s.vOrder.toNat + j) * 2)).take 2)))))

namespace Sys2Proof.Machine

/-- The number of bytes VSTAGE stages, nb of 41_vadpcm.md R245. -/
abbrev State.stagedBytes (s : State) : Nat := s.arg1.toInt.toNat * 9 * s.vChannels.toNat

/-- VSTAGE's checks in their order (41_vadpcm.md R245), and after them the negative pos of 30_encoding.md R121 and the
overflow past POS_MAX of 92_eei_decisions.md D4 (assumption 27, DEDUCED). -/
abbrev State.vstageChecks (s : State) : List (Prop × Trap) :=
  [(s.arg1.toInt < 0, ⟨.badArg, s.arg1.toInt, 1⟩),
    (s.vOpen = false, ⟨.notConfigured, 2, 0⟩),
    (s.arg2.toInt ≠ s.vDecPos.toInt, ⟨.desync, s.arg2.toInt, s.vDecPos.toInt⟩),
    (s.windowEnd < s.arg0.toNat + s.stagedBytes, ⟨.badArg, s.arg0.toNat, s.stagedBytes⟩),
    (s.vEntropy = true ∧ s.hBuilt = false, ⟨.notConfigured, 3, 0⟩),
    (s.arg2.toInt < 0, ⟨.badArg, s.arg2.toInt, 0⟩),
    (posMax < s.arg2.toInt + 16 * s.arg1.toInt, ⟨.badArg, s.arg2.toInt, 16 * s.arg1.toInt⟩)]

/-- VJOB's checks of its operands and of the unit, in their order (41_vadpcm.md R252). -/
abbrev State.vjobChecks (s : State) (nout nin : Nat) : List (Prop × Trap) :=
  [(s.arg1.toInt < 0, ⟨.badArg, s.arg1.toInt, 1⟩),
    (s.vOpen = false, ⟨.notConfigured, 2, 0⟩),
    (s.windowEnd < s.arg0.toNat + nout, ⟨.badArg, s.arg0.toNat, nout⟩),
    (s.arg2.toNat < s.arg0.toNat ∨ s.arg0.toNat + nout < s.arg2.toNat + nin, ⟨.badArg, s.arg2.toNat, nin⟩)]

end Sys2Proof.Machine

/-- 41_vadpcm.md R245: the first of VSTAGE's checks that fails decides its fault; in raw mode (V_ENTROPY = 0) an overlap
with a pending job and a read beyond the stream fault, and else it copies the frames' bytes from the stream and moves
the two cursors. The last two checks and their place (assumption 27), the second value of BAD_ARG (assumption 26) and
the offset STREAM_IO names (assumption 11) are DEDUCED. -/
def Obligations.VstageCopiesRawFrames : Prop :=
  ∀ s : State, s.sourceMayIssue → s.windowInvariant →
    (∀ x, firstFailing s.vstageChecks x → exec .vstage s = .next (s.raise 0x22 x))
    ∧ (allPass s.vstageChecks → s.vEntropy = false →
        (¬ s.noHazard s.arg0.toNat (s.arg0.toNat + s.stagedBytes) →
          ∃ j ∈ s.queue, max j.lo s.arg0.toNat < min j.hi (s.arg0.toNat + s.stagedBytes)
            ∧ exec .vstage s = .next (s.raise 0x22 ⟨.hazard, s.arg0.toNat, j.lo⟩))
        ∧ (s.noHazard s.arg0.toNat (s.arg0.toNat + s.stagedBytes) →
          (s.stagedBytes ≠ 0 → s.stream.length < s.vByteCursor.toNat + s.stagedBytes →
            exec .vstage s = .next (s.raise 0x22 ⟨.streamIo, s.vByteCursor.toNat, s.stream.length⟩))
          ∧ (s.stagedBytes = 0 ∨ s.vByteCursor.toNat + s.stagedBytes ≤ s.stream.length →
            s.vByteCursor.toNat + s.stagedBytes < 2 ^ 32 →
            ∃ m, exec .vstage s = .next { s with
                storage := m
                vByteCursor := BitVec.ofNat 32 (s.vByteCursor.toNat + s.stagedBytes)
                vDecPos := BitVec.ofInt 32 (s.vDecPos.toInt + 16 * s.arg1.toInt) }
              ∧ ∀ a : Nat, Memory.read m a
                  = if s.arg0.toNat ≤ a ∧ a < s.arg0.toNat + s.stagedBytes
                    then s.stream[s.vByteCursor.toNat + (a - s.arg0.toNat)]? else Memory.read s.storage a)))

/-- 41_vadpcm.md R252, at issue: the first of VJOB's checks that fails decides its fault; an input that a pending job
writes faults with HAZARD, and one with a byte that holds no value with UNWRITTEN; else VJOB captures its input: with
room the job joins the queue behind the others, without it the command is held. The second value 1 of a negative count's
BAD_ARG, where 30_encoding.md R121 says 0, is assumption 26 (DEDUCED). -/
def Obligations.VjobCapturesItsInputAtIssue : Prop :=
  ∀ (s : State) (nout nin : Nat), s.sourceMayIssue →
    nout = s.arg1.toInt.toNat * 16 * s.vChannels.toNat * 2 → nin = s.arg1.toInt.toNat * 9 * s.vChannels.toNat →
    (∀ x, firstFailing (s.vjobChecks nout nin) x → exec .vjob s = .next (s.raise 0x23 x))
    ∧ (allPass (s.vjobChecks nout nin) →
        (¬ s.noHazard s.arg2.toNat (s.arg2.toNat + nin) →
          ∃ j ∈ s.queue, max j.lo s.arg2.toNat < min j.hi (s.arg2.toNat + nin)
            ∧ exec .vjob s = .next (s.raise 0x23 ⟨.hazard, s.arg2.toNat, j.lo⟩))
        ∧ (s.noHazard s.arg2.toNat (s.arg2.toNat + nin) →
          ((∃ k < nin, Memory.read s.storage (s.arg2.toNat + k) = none) →
            exec .vjob s = .next (s.raise 0x23 ⟨.unwritten, s.arg2.toNat, nin⟩))
          ∧ (∀ input : List Byte, input.length = nin →
              (∀ k < nin, Memory.read s.storage (s.arg2.toNat + k) = input[k]?) →
              (s.queue.length < Config.queueDepth →
                exec .vjob s = .next { s with
                  queue := s.queue
                    ++ [⟨.vjob, s.arg0.toNat, s.arg0.toNat + nout, s.arg0.toNat, s.arg1.toInt.toNat, input⟩] })
              ∧ (Config.queueDepth ≤ s.queue.length →
                exec .vjob s = .next { s with
                  held := some (.vjob
                    ⟨.vjob, s.arg0.toNat, s.arg0.toNat + nout, s.arg0.toNat, s.arg1.toInt.toNat, input⟩) }))))

namespace Sys2Proof.Machine

/-- The nine bytes of frame f, channel c, of a job's captured input (41_vadpcm.md R252). -/
abbrev jobFrame (s : State) (j : Job) (f c : Nat) : List Byte :=
  (j.input.drop ((f * s.vChannels.toNat + c) * 9)).take 9

/-- Residual k of a frame: nibble k of its last eight bytes, the high nibble first, as a signed number (41_vadpcm.md R250). -/
abbrev residualOf (frame : List Byte) (k : Nat) : Int :=
  (if k % 2 = 0 then highNibble (frame.getD (1 + k / 2) 0) else lowNibble (frame.getD (1 + k / 2) 0)).toInt

end Sys2Proof.Machine

/-- 41_vadpcm.md R250, R252, R254, R258, 20_memory.md R87: under every instance of VADPCM_PREDICT, a job
over an all-zero codebook writes clamp16(residual << scale) for every frame, channel and sample, interleaved by channel
as big-endian s16, writes nothing else, leaves in V_HIST each channel's last V_ORDER samples, and leaves the queue. That
the accumulator's first part is then 0 is assumption 7 (DEDUCED from R256 item 3). -/
def Obligations.ZeroCodebookJobWritesItsResiduals : Prop :=
  ∀ (s : State) (j : Job) (rest : List Job) (moves : List Move),
    s.lifeState ≠ .faulted → s.inputs = .engine :: moves → s.queue = j :: rest →
    1 ≤ j.frames → 1 ≤ s.vOrder.toNat → s.vOrder.toNat ≤ 8 →
    j.input.length = j.frames * 9 * s.vChannels.toNat →
    j.dst + j.frames * 32 * s.vChannels.toNat ≤ s.storageSize →
    s.vPcount.toNat * s.vOrder.toNat * 16 ≤ s.header.length →
    (∀ b ∈ s.header.take (s.vPcount.toNat * s.vOrder.toNat * 16), b = 0) →
    (∀ f < j.frames, ∀ c < s.vChannels.toNat, framePredictor (jobFrame s j f c) < s.vPcount.toNat) →
    ∃ m h, step s = .next { s.afterMove moves with storage := m, vHist := some h, queue := rest }
      ∧ (∀ f < j.frames, ∀ c < s.vChannels.toNat, ∀ k < 16,
          ∃ x : Half, x.toInt = clamp16 (residualOf (jobFrame s j f c) k * 2 ^ frameScale (jobFrame s j f c))
            ∧ Memory.read m (j.dst + ((f * 16 + k) * s.vChannels.toNat + c) * 2) = some (x.extractLsb' 8 8)
            ∧ Memory.read m (j.dst + ((f * 16 + k) * s.vChannels.toNat + c) * 2 + 1) = some (x.extractLsb' 0 8))
      ∧ (∀ a, ¬ (j.dst ≤ a ∧ a < j.dst + j.frames * 32 * s.vChannels.toNat) →
          Memory.read m a = Memory.read s.storage a)
      ∧ h.length = s.vChannels.toNat
      ∧ ∀ c < s.vChannels.toNat, (h.getD c []).length = s.vOrder.toNat
          ∧ ∀ i < s.vOrder.toNat, ∃ x : Half, (h.getD c [])[i]? = some x
            ∧ x.toInt = clamp16 (residualOf (jobFrame s j (j.frames - 1) c) (16 - s.vOrder.toNat + i)
                * 2 ^ frameScale (jobFrame s j (j.frames - 1) c))

/-- 20_memory.md R102: a retirement reads no STORAGE byte: in two states that differ only in STORAGE it writes the same
bytes to the same place and leaves the same history. -/
def Obligations.RetirementReadsNoStorage : Prop :=
  ∀ (s t : State) (m : List Host.Cell), engineStep s = .next t → t.lifeState ≠ .faulted →
    ∃ (dst : Nat) (out : List Byte), t.storage = Memory.writeBytes s.storage dst out
      ∧ engineStep { s with storage := m } = .next { t with storage := Memory.writeBytes m dst out }

/-- 41_vadpcm.md R252, 60_exceptions.md R350: a predictor index out of range faults at retirement with FAULT_OP 0x23,
and leaves the job pending, its writes undone and V_HIST as it was, whichever frame holds it. -/
def Obligations.BadPredictorUndoesTheWholeJob : Prop :=
  ∀ (s : State) (j : Job) (rest : List Job) (f c : Nat),
    s.lifeState ≠ .faulted → s.queue = j :: rest →
    s.vPcount.toNat * s.vOrder.toNat * 16 ≤ s.header.length →
    f < j.frames → c < s.vChannels.toNat → s.vPcount.toNat ≤ framePredictor (jobFrame s j f c) →
    (∀ f' c', c' < s.vChannels.toNat → f' * s.vChannels.toNat + c' < f * s.vChannels.toNat + c →
      framePredictor (jobFrame s j f' c') < s.vPcount.toNat) →
    engineStep s
      = .next (s.raise 0x23 ⟨.badPredictor, framePredictor (jobFrame s j f c), s.vPcount.toNat⟩)

/-- 41_vadpcm.md R256 item 3, for every instance: with an all-zero codebook the outputs are the clamped residuals,
whatever the history. That the accumulator's first part is then 0 is assumption 7 (DEDUCED). -/
def Obligations.ZeroCodebookPredictsTheResiduals : Prop :=
  ∀ (coef : List (List Int)) (order : Nat) (hist e : List Int),
    (∀ row ∈ coef, ∀ v ∈ row, v = 0) → predict ownPredictor coef order hist e = e.map clamp16

/-- 41_vadpcm.md R256 items 1 and 2, for every instance: output k depends on the residuals up to k only, and is the clamp
of some accumulator shifted right by FRAC_BITS. -/
def Obligations.PredictionIsCausalAndClamped : Prop :=
  ∀ (coef : List (List Int)) (order : Nat) (hist e e' : List Int) (k : Nat),
    (e.take (k + 1) = e'.take (k + 1) →
      (predict ownPredictor coef order hist e)[k]? = (predict ownPredictor coef order hist e')[k]?)
    ∧ (k < e.length → ∃ acc : Int,
        (predict ownPredictor coef order hist e)[k]? = some (clamp16 (acc / 2 ^ Config.fracBits)))

/-! ### The Huffman unit -/

namespace Sys2Proof.Machine

/-- len[sym] in the 24 bytes of a context: the high nibble for an even symbol (42_huffman.md R280). -/
abbrev codeLength (ctx : List Byte) (sym : Nat) : Nat :=
  (if sym % 2 = 0 then highNibble (ctx.getD (sym / 2) 0) else lowNibble (ctx.getD (sym / 2) 0)).toNat

/-- code[sym] in the 24 bytes of a context (42_huffman.md R280). -/
abbrev codeValue (ctx : List Byte) (sym : Nat) : Nat := (ctx.getD (8 + sym) 0).toNat

/-- The 24 bytes of context k (42_huffman.md R280). -/
abbrev State.contextBytes (s : State) (k : Nat) : List Byte := (s.header.drop (s.codebookEnd + 24 * k)).take 24

/-- Every present code has a length of at most 8 and fits in it (42_huffman.md R282). -/
abbrev codesFit (ctx : List Byte) : Prop :=
  ∀ sym < 16, codeLength ctx sym ≤ 8 ∧ (codeLength ctx sym ≠ 0 → codeValue ctx sym < 2 ^ codeLength ctx sym)

/-- No present code is a prefix of another (42_huffman.md R282). -/
abbrev prefixFree (ctx : List Byte) : Prop :=
  ∀ a < 16, ∀ b < 16, a ≠ b → codeLength ctx a ≠ 0 → codeLength ctx a ≤ codeLength ctx b →
    codeValue ctx b / 2 ^ (codeLength ctx b - codeLength ctx a) ≠ codeValue ctx a

/-- Symbol sym's code is present and is a prefix of the 8-bit window w (42_huffman.md R280, R294). -/
abbrev codeCovers (ctx : List Byte) (sym w : Nat) : Prop :=
  codeLength ctx sym ≠ 0 ∧ w / 2 ^ (8 - codeLength ctx sym) = codeValue ctx sym

/-- Every symbol before sym has no code, or one of at most 8 bits that fits in its length, and no window has two of them
as prefixes: HBUILD has met no malformed code before sym (42_huffman.md R280, R282). -/
abbrev wellFormedBefore (ctx : List Byte) (sym : Nat) : Prop :=
  ∀ a < sym, (codeLength ctx a ≤ 8 ∧ (codeLength ctx a ≠ 0 → codeValue ctx a < 2 ^ codeLength ctx a))
    ∧ ∀ b < a, ∀ w < 256, ¬ (codeCovers ctx a w ∧ codeCovers ctx b w)

/-- The sum of 2^(8 - len) over the present symbols (42_huffman.md R286). -/
def kraftSum (ctx : List Byte) : Nat :=
  ((List.range 16).map fun sym => if codeLength ctx sym = 0 then 0 else 2 ^ (8 - codeLength ctx sym)).sum

/-- The state in which HDECODE passes its checks (42_huffman.md R290). -/
abbrev State.hdecodePasses (s : State) : Prop :=
  s.sourceMayIssue ∧ s.windowInvariant ∧ s.vOpen = true ∧ s.vEntropy = true ∧ s.hBuilt = true
  ∧ (s.arg0.toNat : Int) + 9 ≤ s.windowEnd ∧ s.noHazard s.arg0.toNat (s.arg0.toNat + 9)

/-- The table entry that symbol i of a block is read with, from stream bit p: the context is 0, 1, then 2 (42_huffman.md
R290). Where the table holds no value, a free value (assumption 3, DESIGN CHOICE). -/
abbrev State.blockEntry (s : State) (i p : Nat) : Byte := s.tableEntry (min i 2) (streamWindow s.stream p)

end Sys2Proof.Machine

/-- 42_huffman.md R284: a completed HBUILD leaves every one of the 3 x 256 entries filled with a length in 1 .. 8. -/
def Obligations.HbuildFillsEveryEntry : Prop :=
  ∀ s t : State, s.hostMayIssue → exec .hbuild s = .next t → t.lifeState = .ready →
    t.hBuilt = true ∧ ∀ k < 3, ∃ tab, t.hTab.context k = some tab ∧ tab.length = 256
      ∧ ∀ x < 256, 1 ≤ (lowNibble (tab.getD x 0)).toNat ∧ (lowNibble (tab.getD x 0)).toNat ≤ 8

/-- 42_huffman.md R280, R282, R286: the first malformed code of a context is the fault, with its kind (0 a length above
8, 1 a code too wide for its length, 2 an overlap with an earlier one); for a context whose codes fit their lengths, the
build succeeds exactly when the codes are prefix-free and the Kraft sum is 256; a sum above 256 is HUFF_MALFORMED, a
prefix-free one below it HUFF_INCOMPLETE at the least window that no code covers. -/
def Obligations.ContextBuildsExactlyAtKraftEquality : Prop :=
  ∀ (s : State) (k : Nat), s.codebookEnd + 24 * k + 24 ≤ s.header.length →
    (∀ sym < 16, wellFormedBefore (s.contextBytes k) sym →
      (8 < codeLength (s.contextBytes k) sym →
        buildContext s k = .error ⟨.huffMalformed, (256 * k + sym : Nat), 0⟩)
      ∧ (codeLength (s.contextBytes k) sym ≤ 8 → codeLength (s.contextBytes k) sym ≠ 0 →
          2 ^ codeLength (s.contextBytes k) sym ≤ codeValue (s.contextBytes k) sym →
          buildContext s k = .error ⟨.huffMalformed, (256 * k + sym : Nat), 1⟩)
      ∧ (codeLength (s.contextBytes k) sym ≤ 8 →
          codeValue (s.contextBytes k) sym < 2 ^ codeLength (s.contextBytes k) sym →
          (∃ b < sym, ∃ w < 256, codeCovers (s.contextBytes k) sym w ∧ codeCovers (s.contextBytes k) b w) →
          buildContext s k = .error ⟨.huffMalformed, (256 * k + sym : Nat), 2⟩))
    ∧ (codesFit (s.contextBytes k) →
        ((∃ tab, buildContext s k = .ok tab) ↔ prefixFree (s.contextBytes k) ∧ kraftSum (s.contextBytes k) = 256)
        ∧ (256 < kraftSum (s.contextBytes k) →
            ∃ x, buildContext s k = .error x ∧ x.cause = .huffMalformed ∧ x.info1 = 2)
        ∧ (prefixFree (s.contextBytes k) → kraftSum (s.contextBytes k) < 256 →
            ∃ w : Nat, w < 256 ∧ buildContext s k = .error ⟨.huffIncomplete, k, w⟩
              ∧ (∀ sym < 16, ¬ codeCovers (s.contextBytes k) sym w)
              ∧ ∀ w' < w, ∃ sym < 16, codeCovers (s.contextBytes k) sym w'))

/-- 42_huffman.md R294, R280: in a built table every window finds the unique present code that is a prefix of it, and
the entry holds that code's symbol and length. -/
def Obligations.LookupFindsTheUniquePrefixCode : Prop :=
  ∀ (s : State) (k : Nat) (tab : List Byte), s.codebookEnd + 24 * k + 24 ≤ s.header.length →
    buildContext s k = .ok tab → ∀ x < 256,
      ∃ sym < 16, codeLength (s.contextBytes k) sym ≠ 0
        ∧ codeValue (s.contextBytes k) sym = x / 2 ^ (8 - codeLength (s.contextBytes k) sym)
        ∧ tab[x]? = some (BitVec.ofNat 8 (16 * sym + codeLength (s.contextBytes k) sym))
        ∧ ∀ sym' < 16, codeLength (s.contextBytes k) sym' ≠ 0 →
            codeValue (s.contextBytes k) sym' = x / 2 ^ (8 - codeLength (s.contextBytes k) sym') → sym' = sym

/-- 42_huffman.md R280: HBUILD where the three contexts build: the tables become them, in order, and H_BUILT is 1; a
closed unit, a source without entropy coding and the first context that does not build fault, with the tables before it
stored. That a fault leaves H_BUILT = 0 in the faulted state is assumption 28 (DEDUCED). -/
def Obligations.HbuildStoresTheBuiltTables : Prop :=
  ∀ s : State, s.hostMayIssue →
    (s.vOpen = false → exec .hbuild s = .next (State.raise { s with hBuilt := false } 0x30 ⟨.notConfigured, 2, 0⟩))
    ∧ (s.vOpen = true → s.vEntropy = false →
        exec .hbuild s = .next (State.raise { s with hBuilt := false } 0x30 ⟨.config, 0, 1⟩))
    ∧ (s.vOpen = true → s.vEntropy = true →
        (∀ x, buildContext s 0 = .error x →
          exec .hbuild s = .next (State.raise { s with hBuilt := false } 0x30 x))
        ∧ (∀ t0 x, buildContext s 0 = .ok t0 → buildContext s 1 = .error x →
          exec .hbuild s = .next (State.raise { s with
            hTab := { s.hTab with ctx0 := some t0 }
            hBuilt := false } 0x30 x))
        ∧ (∀ t0 t1 x, buildContext s 0 = .ok t0 → buildContext s 1 = .ok t1 → buildContext s 2 = .error x →
          exec .hbuild s = .next (State.raise { s with
            hTab := { s.hTab with ctx0 := some t0, ctx1 := some t1 }
            hBuilt := false } 0x30 x))
        ∧ (∀ t0 t1 t2, buildContext s 0 = .ok t0 → buildContext s 1 = .ok t1 → buildContext s 2 = .ok t2 →
          exec .hbuild s = .next { s with hTab := ⟨some t0, some t1, some t2⟩, hBuilt := true }))

/-- 42_huffman.md R290: HDECODE reads 18 codes from V_BIT_POS on, each through the table of its context, and packs the
18 symbols into the nine bytes at dst; V_BIT_POS moves past the last code. `p i` is the bit symbol i starts at. -/
def Obligations.HdecodeUnpacksOneBlock : Prop :=
  ∀ (s : State) (p : Nat → Nat), s.hdecodePasses → p 0 = s.vBitPos.toNat →
    (∀ i < 18, p (i + 1) = p i + (lowNibble (s.blockEntry i (p i))).toNat) → p 18 ≤ 8 * s.stream.length →
    p 18 < 2 ^ 32 →
    ∃ m, exec .hdecode s = .next { s with storage := m, vBitPos := BitVec.ofNat 32 (p 18) }
      ∧ (∀ k < 9, Memory.read m (s.arg0.toNat + k)
          = some (highNibble (s.blockEntry (2 * k) (p (2 * k)))
              ++ highNibble (s.blockEntry (2 * k + 1) (p (2 * k + 1)))))
      ∧ (∀ a, ¬ (s.arg0.toNat ≤ a ∧ a < s.arg0.toNat + 9) → Memory.read m a = Memory.read s.storage a)

namespace Sys2Proof.Machine

/-- HDECODE's checks of the unit and of its operand, in their order (42_huffman.md R290). -/
abbrev State.hdecodeChecks (s : State) : List (Prop × Trap) :=
  [(s.vOpen = false, ⟨.notConfigured, 2, 0⟩),
    (s.vEntropy = false, ⟨.config, 0, 1⟩),
    (s.hBuilt = false, ⟨.notConfigured, 3, 0⟩),
    (s.windowEnd < s.arg0.toNat + 9, ⟨.badArg, s.arg0.toNat, 9⟩)]

/-- `s` with ARG0 at block b of a VSTAGE whose destination is `dst` (41_vadpcm.md R245). -/
abbrev State.atBlock (s : State) (dst : Word) (b : Nat) : State :=
  { s with arg0 := BitVec.ofNat 32 (dst.toNat + 9 * b) }

end Sys2Proof.Machine

/-- 42_huffman.md R290: the first of HDECODE's checks that fails decides its fault; an overlap with a pending job faults
with HAZARD; a code that would end beyond the stream faults with STREAM_IO at its own bit; nothing else changes. -/
def Obligations.HdecodeFaultsChangeNothing : Prop :=
  ∀ s : State, s.sourceMayIssue →
    (∀ x, firstFailing s.hdecodeChecks x → exec .hdecode s = .next (s.raise 0x31 x))
    ∧ (allPass s.hdecodeChecks → ¬ s.noHazard s.arg0.toNat (s.arg0.toNat + 9) →
        ∃ j ∈ s.queue, max j.lo s.arg0.toNat < min j.hi (s.arg0.toNat + 9)
          ∧ exec .hdecode s = .next (s.raise 0x31 ⟨.hazard, s.arg0.toNat, j.lo⟩))
    ∧ (∀ (p : Nat → Nat) (n : Nat), s.hdecodePasses → p 0 = s.vBitPos.toNat → n < 18 →
        (∀ i ≤ n, p (i + 1) = p i + (lowNibble (s.blockEntry i (p i))).toNat) →
        (∀ i < n, p (i + 1) ≤ 8 * s.stream.length) → 8 * s.stream.length < p (n + 1) →
        exec .hdecode s = .next (s.raise 0x31 ⟨.streamIo, p n, 8 * s.stream.length⟩))

/-- 41_vadpcm.md R245, V_ENTROPY = 1: VSTAGE of any number of frames, mono or stereo, does what HDECODE does at dst,
dst + 9, and so on, one block per frame and channel, and then moves the two frame-level cursors. `u b` is the state
before block b. A block that faults leaves the blocks before it, and its fault is recorded with VSTAGE's opcode. -/
def Obligations.VstageUnpacksEntropyFrames : Prop :=
  ∀ (s : State) (blocks : Nat) (u : Nat → State), s.sourceMayIssue → s.windowInvariant →
    allPass s.vstageChecks → s.vEntropy = true → u 0 = s →
    (∀ b < blocks, exec .hdecode ((u b).atBlock s.arg0 b) = .next ((u (b + 1)).atBlock s.arg0 b)
      ∧ (u (b + 1)).arg0 = s.arg0 ∧ (u (b + 1)).lifeState = .ready) →
    (blocks = s.arg1.toInt.toNat * s.vChannels.toNat → s.vByteCursor.toNat + s.stagedBytes < 2 ^ 32 →
      exec .vstage s = .next { u blocks with
        vByteCursor := BitVec.ofNat 32 (s.vByteCursor.toNat + s.stagedBytes)
        vDecPos := BitVec.ofInt 32 (s.vDecPos.toInt + 16 * s.arg1.toInt) })
    ∧ (∀ v, blocks < s.arg1.toInt.toNat * s.vChannels.toNat →
        exec .hdecode ((u blocks).atBlock s.arg0 blocks) = .next v → v.lifeState = .faulted →
        exec .vstage s = .next { v with arg0 := s.arg0, faultOp := 0x22 })

/-! ### Held commands go on -/

/-- 10_state.md R43, 00_scope.md R15, 20_memory.md R101: a held command whose condition is met goes on in the control
path's next step with the operands it latched, whatever ARG0 to ARG3 hold by then: as it would if it were issued now
with those operands, or, for VOPEN and VJOB, with what it computed from them. -/
def Obligations.HeldCommandsGoOnWithLatchedOperands : Prop :=
  ∀ (s : State) (rest : List Move), s.lifeState = .ready → s.controlPathIsNext rest →
    (∀ id ssize, s.held = some (.setSource id ssize) → s.queue = [] → s.inRead = false → s.flushed = true →
      ssize.toNat % 16 = 0 → ssize.toNat ≤ s.stateReserved.toNat →
      step s = keepArgs s (exec .setSource { s.afterMove rest with held := none, arg0 := id, arg1 := ssize }))
    ∧ (∀ w : Word, s.held = some (.discard w.toInt) → s.queue = [] → s.inRead = false → 0 ≤ w.toInt →
        step s = keepArgs s (exec .discard { s.afterMove rest with held := none, arg0 := w }))
    ∧ (∀ w : Word, s.held = some (.append w.toInt) → s.queue = [] → s.inRead = true → 0 ≤ w.toInt →
        (s.capacity : Int) < s.writeLen.toInt + w.toInt →
        step s = keepArgs s (exec .append { s.afterMove rest with held := none, arg0 := w }))
    ∧ (∀ w : Word, s.held = some (.vseek w.toInt) → s.queue = [] → s.inRead = true → 0 ≤ w.toInt → s.vOpen = true →
        step s = keepArgs s (exec .vseek { s.afterMove rest with held := none, arg0 := w }))
    ∧ (∀ c, s.held = some (.vopen c) → s.queue = [] → c.skipBase < 2 ^ 32 →
        step s = .next { s.afterMove rest with
          held := none
          vOrder := c.order
          vPcount := c.pcount
          vChannels := c.channels
          vEntropy := c.entropy
          vVersion := c.version
          vLength := c.length
          vSkipBase := BitVec.ofNat 32 c.skipBase
          vSkipCount := c.skipCount
          vHist := some (List.replicate c.channels.toNat (List.replicate c.order.toNat 0))
          vDecPos := 0
          vByteCursor := 0
          vBitPos := 0
          hBuilt := false
          vOpen := true })
    ∧ (∀ j, s.held = some (.vjob j) → s.queue.length < Config.queueDepth →
        step s = .next { s.afterMove rest with held := none, queue := s.queue ++ [j] })

/-! ### The reference sources -/

/-- 43_source_contract.md R318: RAW answers an outstanding request with APPEND n, SCOPY of the samples' bytes, and
READ_DONE; READ_DONE alone where it has nothing; n is the part of the request before TOTAL. -/
def Obligations.RawSourceAnswersAReadRequest : Prop :=
  ∀ (s : State) (total : Nat) (n : Int), s.answeringRead → s.inputs = [] → s.boundMedia.agent = .raw total →
    n = max 0 (min s.rreqLen.toInt (total - s.rreqPos.toInt)) → 0 ≤ s.rreqPos.toInt →
    (s.srcPhase = .start → 0 < n →
      step s = exec .append { s with freeTick := s.freeTick + 1, arg0 := BitVec.ofInt 32 n, srcPhase := .appended })
    ∧ (s.srcPhase = .start → n = 0 → step s = exec .readDone { s with freeTick := s.freeTick + 1 })
    ∧ (s.srcPhase = .appended → s.rreqPos.toInt * s.bytesPerSample < 2 ^ 32 → n * s.bytesPerSample < 2 ^ 32 →
        step s = exec .scopy { s with
          freeTick := s.freeTick + 1
          arg0 := s.res0
          arg1 := BitVec.ofInt 32 (s.rreqPos.toInt * s.bytesPerSample)
          arg2 := BitVec.ofInt 32 (n * s.bytesPerSample)
          srcPhase := .copied })
    ∧ (s.srcPhase = .copied → step s = exec .readDone { s with freeTick := s.freeTick + 1 })

/-! ### Invariants -/

/-- 10_state.md R46, 20_memory.md R81: every step keeps STORAGE in canonical form, with no byte beyond its size. -/
def Obligations.StepKeepsTheStorageInvariant : Prop :=
  ∀ s t : State, s.storageInvariant → step s = .next t → t.storageInvariant

/-- 10_state.md R41, R37, R38: every step keeps the window's invariant, of which R41's five items are the part for the
states between commands. -/
def Obligations.StepKeepsTheWindowInvariant : Prop :=
  ∀ s t : State, s.windowInvariant → step s = .next t → t.windowInvariant

/-- 10_state.md R76, 42_huffman.md R284: every step keeps V_HIST and the tables filled where they are used. -/
def Obligations.StepKeepsTheUnitInvariant : Prop :=
  ∀ s t : State, s.unitInvariant → step s = .next t → t.unitInvariant

/-- No step stops the model, and only a transform-coded source (00_scope.md R5) is refused. -/
def Obligations.OnlyTheTransformSourceIsRefused : Prop :=
  ∀ s : State,
    (∃ t, step s = .next t)
    ∨ (step s = .refused .transformCodedSource ∧ s.inRead = true ∧ s.boundMedia.agent = .transform)

/-- The three invariants hold after reset, whatever codec versions the instance accepts, whatever sources the platform
holds and whatever moves are to come. -/
def Obligations.ResetMeetsTheInvariants : Prop :=
  ∀ (versions : List (BitVec 16)) (media : List (Word × Media)) (inputs : List Move),
    State.storageInvariant { State.reset with codecVersions := versions, media := media, inputs := inputs }
    ∧ State.windowInvariant { State.reset with codecVersions := versions, media := media, inputs := inputs }
    ∧ State.unitInvariant { State.reset with codecVersions := versions, media := media, inputs := inputs }

/-! ### Frames: what an instruction leaves unchanged in every next state it answers -/

/-- The commands that store nothing in STORAGE: beside the fault registers and the hold, each changes only the
registers its rule names, and no byte. -/
def Obligations.FrameOfTheRegisterCommands : Prop :=
  ∀ s t : State,
    (exec .setWidth s = .next t →
      t = { s.faultLike t with wc := t.wc, widthSet := t.widthSet, vOpen := t.vOpen })
    ∧ (exec .get s = .next t →
      t = { s.faultLike t with
        gWpos := t.gWpos
        gWlen := t.gWlen
        gPhase := t.gPhase
        writePos := t.writePos
        writeLen := t.writeLen
        readCursor := t.readCursor
        nextExpected := t.nextExpected
        rreqPos := t.rreqPos
        rreqLen := t.rreqLen
        rreqSeek := t.rreqSeek
        inRead := t.inRead
        srcPhase := t.srcPhase
        res0 := t.res0
        res1 := t.res1 })
    ∧ (exec .drain s = .next t → t = s.faultLike t)
    ∧ (exec .readDone s = .next t → t = { s.faultLike t with inRead := t.inRead })
    ∧ (exec .vopen s = .next t →
      t = { s.faultLike t with
        vOrder := t.vOrder
        vPcount := t.vPcount
        vChannels := t.vChannels
        vEntropy := t.vEntropy
        vVersion := t.vVersion
        vLength := t.vLength
        vSkipBase := t.vSkipBase
        vSkipCount := t.vSkipCount
        vHist := t.vHist
        vDecPos := t.vDecPos
        vByteCursor := t.vByteCursor
        vBitPos := t.vBitPos
        hBuilt := t.hBuilt
        vOpen := t.vOpen })
    ∧ (exec .vseek s = .next t →
      t = { s.faultLike t with
        vHist := t.vHist
        vDecPos := t.vDecPos
        vByteCursor := t.vByteCursor
        vBitPos := t.vBitPos })
    ∧ (exec .vjob s = .next t → t = { s.faultLike t with queue := t.queue })
    ∧ (exec .hbuild s = .next t → t = { s.faultLike t with hTab := t.hTab, hBuilt := t.hBuilt })

/-- APPEND, UNDO, DISCARD and FLUSH: the registers each changes, and that no byte changes outside the window before
and after (for FLUSH, outside the PCM region). -/
def Obligations.FrameOfTheWindowCommands : Prop :=
  ∀ s t : State,
    (exec .append s = .next t →
      t = { s.faultLike t with
        storage := t.storage
        writePos := t.writePos
        writeLen := t.writeLen
        readCursor := t.readCursor
        res0 := t.res0 }
      ∧ ∀ a : Nat, s.windowEnd ≤ a → s.windowEnd + s.arg0.toInt * s.bytesPerSample ≤ a →
          Memory.read t.storage a = Memory.read s.storage a)
    ∧ (exec .undo s = .next t →
      t = { s.faultLike t with
        storage := t.storage
        writeLen := t.writeLen
        readCursor := t.readCursor }
      ∧ ∀ a : Nat, ¬ ((s.writeLen.toInt - s.arg0.toInt) * s.bytesPerSample ≤ a ∧ (a : Int) < s.windowEnd) →
          Memory.read t.storage a = Memory.read s.storage a)
    ∧ (exec .discard s = .next t →
      t = { s.faultLike t with
        storage := t.storage
        writePos := t.writePos
        writeLen := t.writeLen
        readCursor := t.readCursor }
      ∧ ∀ a : Nat, s.windowEnd ≤ a → Memory.read t.storage a = Memory.read s.storage a)
    ∧ (exec .flush s = .next t →
      t = { s.faultLike t with
        storage := t.storage
        writePos := t.writePos
        writeLen := t.writeLen
        readCursor := t.readCursor
        nextExpected := t.nextExpected }
      ∧ ∀ a : Nat, s.sizeBytes.toNat ≤ a → Memory.read t.storage a = Memory.read s.storage a)

/-- SCOPY, HDECODE and VSTAGE: the registers each changes, and that no byte changes outside the bytes it stores from
dst on. -/
def Obligations.FrameOfTheStoringCommands : Prop :=
  ∀ s t : State,
    (exec .scopy s = .next t →
      t = { s.faultLike t with storage := t.storage }
      ∧ ∀ a : Nat, ¬ (s.arg0.toNat ≤ a ∧ (a : Int) < s.arg0.toNat + s.arg2.toInt) →
          Memory.read t.storage a = Memory.read s.storage a)
    ∧ (exec .hdecode s = .next t →
      t = { s.faultLike t with storage := t.storage, vBitPos := t.vBitPos }
      ∧ ∀ a : Nat, ¬ (s.arg0.toNat ≤ a ∧ a < s.arg0.toNat + 9) →
          Memory.read t.storage a = Memory.read s.storage a)
    ∧ (exec .vstage s = .next t →
      t = { s.faultLike t with
        storage := t.storage
        vBitPos := t.vBitPos
        vByteCursor := t.vByteCursor
        vDecPos := t.vDecPos }
      ∧ ∀ a : Nat, ¬ (s.arg0.toNat ≤ a ∧ (a : Int) < s.arg0.toNat + s.arg1.toInt * 9 * s.vChannels.toNat) →
          Memory.read t.storage a = Memory.read s.storage a)

/-- INIT, CLOSE and SET_SOURCE: what each leaves. INIT and CLOSE rebind all of STORAGE; SET_SOURCE changes bytes of the
state block region only. -/
def Obligations.FrameOfTheLifecycleCommands : Prop :=
  ∀ s t : State,
    (exec .init s = .next t →
      t = { s.faultLike t with
        storage := t.storage
        sizeBytes := t.sizeBytes
        stateReserved := t.stateReserved
        writePos := t.writePos
        writeLen := t.writeLen
        readCursor := t.readCursor
        nextExpected := t.nextExpected
        widthSet := t.widthSet
        sourceSet := t.sourceSet
        sourceId := t.sourceId
        stateSize := t.stateSize
        vOpen := t.vOpen
        hBuilt := t.hBuilt
        queue := t.queue }
      ∧ (t.storage = s.storage ∨ t.storage = []))
    ∧ (exec .close s = .next t → t = s.faultLike t ∨ t = s.powerOn)
    ∧ (exec .setSource s = .next t →
      t = { s.faultLike t with
        storage := t.storage
        sourceId := t.sourceId
        sourceSet := t.sourceSet
        stateSize := t.stateSize
        vOpen := t.vOpen
        hBuilt := t.hBuilt
        vHist := t.vHist }
      ∧ ∀ a : Nat, ¬ (s.sizeBytes.toNat ≤ a ∧ a < s.sizeBytes.toNat + s.stateReserved.toNat) →
          Memory.read t.storage a = Memory.read s.storage a)

/-- 20_memory.md R94, R102, 41_vadpcm.md R252: a step of the offload engine changes only STORAGE, V_HIST and QUEUE
beside the fault registers; a job that retires is the oldest, leaves the others in order and writes no byte outside its
own output range (10_state.md R47), none at all where it has no frame; where the step faults, nothing else has changed. -/
def Obligations.FrameOfJobRetirement : Prop :=
  ∀ s t : State, engineStep s = .next t →
    t = { s.faultLike t with storage := t.storage, vHist := t.vHist, queue := t.queue }
    ∧ (t.lifeState ≠ .faulted → t.queue = s.queue.tail)
    ∧ (∀ j rest, s.queue = j :: rest → t.lifeState ≠ .faulted →
        (∀ a, ¬ (j.dst ≤ a ∧ a < j.dst + j.frames * 32 * s.vChannels.toNat) →
          Memory.read t.storage a = Memory.read s.storage a)
        ∧ (j.frames = 0 → t.storage = s.storage))
    ∧ (t.lifeState = .faulted → t = s.faultLike t)
    ∧ (s.lifeState ≠ .faulted → s.queue = [] → t = s)
end

