-- ==== Sys2Proof/Laws/Memory.lean ====
section
/-! SUPPORT. What the memory operations do, byte by byte, and that each keeps the canonical form. -/

namespace Sys2Proof.Machine

@[simp] theorem Memory.read_nil (a : Nat) : Memory.read [] a = none := rfl

theorem Memory.read_cons (c : Host.Cell) (m : List Host.Cell) (a : Nat) :
    Memory.read (c :: m) a = if c.1 = a then some c.2 else Memory.read m a := rfl

/-- A byte holds a value exactly when its offset is listed. -/
theorem Memory.read_isSome (m : List Host.Cell) (a : Nat) :
    (Memory.read m a).isSome = true ↔ ∃ c ∈ m, c.1 = a := by
  induction m with
  | nil => simp
  | cons c rest ih =>
    rw [Memory.read_cons]
    split
    · simp [*]
    · simp [*]

/-- Read after write. -/
theorem Memory.read_write (m : List Host.Cell) (a x : Nat) (b : Byte) :
    Memory.read (Memory.write m a b) x = if x = a then some b else Memory.read m x := by
  induction m with
  | nil => simp [Memory.write, Memory.read_cons, eq_comm]
  | cons c rest ih =>
    unfold Memory.write
    split
    · simp only [Memory.read_cons, eq_comm (a := a)]
    · split
      · subst_vars
        simp only [Memory.read_cons, eq_comm (a := x)]
        split <;> simp_all
      · rw [Memory.read_cons, ih, Memory.read_cons]
        split
        · split
          · omega
          · rfl
        · rfl

/-- Read after clearing a range. -/
theorem Memory.read_clear (m : List Host.Cell) (lo hi x : Nat) :
    Memory.read (Memory.clear m lo hi) x = if lo ≤ x ∧ x < hi then none else Memory.read m x := by
  induction m with
  | nil => simp [Memory.clear]
  | cons c rest ih =>
    have ih' : Memory.read (List.filter (fun c : Host.Cell => c.1 < lo || hi ≤ c.1) rest) x
        = if lo ≤ x ∧ x < hi then none else Memory.read rest x := ih
    by_cases h : c.1 < lo ∨ hi ≤ c.1
    · have : Memory.clear (c :: rest) lo hi
          = c :: List.filter (fun c : Host.Cell => c.1 < lo || hi ≤ c.1) rest := by
        simp [Memory.clear, h]
      rw [this, Memory.read_cons, Memory.read_cons, ih']
      split
      · rw [if_neg (by omega)]
      · rfl
    · have : Memory.clear (c :: rest) lo hi
          = List.filter (fun c : Host.Cell => c.1 < lo || hi ≤ c.1) rest := by
        simp [Memory.clear, h]
      rw [this, ih', Memory.read_cons]
      split
      · rfl
      · rw [if_neg (by omega)]

/-- Read after writing consecutive bytes. -/
theorem Memory.read_writeBytes (bs : List Byte) (m : List Host.Cell) (a x : Nat) :
    Memory.read (Memory.writeBytes m a bs) x
      = if a ≤ x ∧ x < a + bs.length then bs[x - a]? else Memory.read m x := by
  induction bs generalizing m a with
  | nil =>
    rw [if_neg (by simp only [List.length_nil]; omega)]
    rfl
  | cons b rest ih =>
    simp only [Memory.writeBytes, ih, Memory.read_write, List.length_cons]
    by_cases hx : x = a
    · subst hx
      rw [if_neg (by omega), if_pos rfl, if_pos (by omega)]
      simp
    · by_cases h : a + 1 ≤ x ∧ x < a + 1 + rest.length
      · rw [if_pos h, if_pos (by omega)]
        obtain ⟨k, rfl⟩ : ∃ k, x = a + 1 + k := ⟨x - (a + 1), by omega⟩
        rw [show a + 1 + k - (a + 1) = k by omega, show a + 1 + k - a = k + 1 by omega]
        rfl
      · rw [if_neg h, if_neg hx, if_neg (by omega)]

/-- A byte set to a value or to no value. -/
theorem Memory.read_put (m : List Host.Cell) (a x : Nat) (v : Option Byte) :
    Memory.read (Memory.put m a v) x = if x = a then v else Memory.read m x := by
  cases v with
  | none =>
    simp only [Memory.put, Memory.read_clear]
    by_cases h : x = a
    · rw [if_pos (by omega), if_pos h]
    · rw [if_neg (by omega), if_neg h]
  | some b => exact Memory.read_write m a x b

/-- Read after setting consecutive bytes. -/
theorem Memory.read_putAll (vs : List (Option Byte)) (m : List Host.Cell) (a x : Nat) :
    Memory.read (Memory.putAll m a vs) x
      = if a ≤ x ∧ x < a + vs.length then (vs[x - a]?).join else Memory.read m x := by
  induction vs generalizing m a with
  | nil =>
    rw [if_neg (by simp only [List.length_nil]; omega)]
    rfl
  | cons v rest ih =>
    simp only [Memory.putAll, ih, Memory.read_put, List.length_cons]
    by_cases hx : x = a
    · subst hx
      rw [if_neg (by omega), if_pos rfl, if_pos (by omega)]
      simp
    · by_cases h : a + 1 ≤ x ∧ x < a + 1 + rest.length
      · rw [if_pos h, if_pos (by omega)]
        obtain ⟨k, rfl⟩ : ∃ k, x = a + 1 + k := ⟨x - (a + 1), by omega⟩
        rw [show a + 1 + k - (a + 1) = k by omega, show a + 1 + k - a = k + 1 by omega]
        rfl
      · rw [if_neg h, if_neg hx, if_neg (by omega)]

/-- MemCopy: every byte of the destination reads as the source byte did (00_scope.md R14). -/
theorem Memory.read_copy (m : List Host.Cell) (dst src n x : Nat) :
    Memory.read (Memory.copy m dst src n) x
      = if dst ≤ x ∧ x < dst + n then Memory.read m (src + (x - dst)) else Memory.read m x := by
  simp only [Memory.copy, Memory.read_putAll, List.length_map, List.length_range]
  split
  · rw [List.getElem?_map, List.getElem?_range (by omega)]
    rfl
  · rfl

/-- The bytes of a range, exactly when all of them hold values. -/
theorem Memory.readBytes_eq_some (m : List Host.Cell) (n a : Nat) (bs : List Byte) :
    Memory.readBytes m a n = some bs ↔ bs.length = n ∧ ∀ k < n, Memory.read m (a + k) = bs[k]? := by
  induction n generalizing a bs with
  | zero =>
    simp only [Memory.readBytes, Option.some.injEq]
    constructor
    · rintro rfl
      exact ⟨rfl, fun k hk => absurd hk (by omega)⟩
    · rintro ⟨h, -⟩
      exact (List.length_eq_zero_iff.mp h).symm
  | succ n ih =>
    simp only [Memory.readBytes]
    constructor
    · intro h
      split at h
      · rename_i b rest hb hrest
        obtain rfl := Option.some.inj h
        obtain ⟨hl, hk⟩ := (ih _ _).mp hrest
        refine ⟨by simp [hl], fun k hk' => ?_⟩
        cases k with
        | zero => simpa using hb
        | succ k =>
          rw [show a + (k + 1) = a + 1 + k by omega, hk k (by omega)]
          rfl
      · cases h
    · rintro ⟨hl, hk⟩
      cases bs with
      | nil => simp at hl
      | cons b rest =>
        have h0 : Memory.read m a = some b := by simpa using hk 0 (by omega)
        have hr : Memory.readBytes m (a + 1) n = some rest := by
          refine (ih _ _).mpr ⟨by simpa using hl, fun k hk' => ?_⟩
          rw [show a + 1 + k = a + (k + 1) by omega, hk (k + 1) (by omega)]
          rfl
        rw [h0, hr]

/-! ### The canonical form -/

theorem Memory.wf_iff (m : List Host.Cell) : Memory.wf m = true ↔ m.Pairwise (fun c d => c.1 < d.1) := by
  induction m with
  | nil => simp [Memory.wf]
  | cons c rest ih =>
    cases rest with
    | nil => simp [Memory.wf]
    | cons d rest =>
      simp only [Memory.wf, Bool.and_eq_true, decide_eq_true_eq, ih, List.pairwise_cons (a := c)]
      constructor
      · rintro ⟨hcd, hp⟩
        refine ⟨fun e he => ?_, hp⟩
        rcases List.mem_cons.mp he with rfl | he
        · exact hcd
        · exact hcd.trans ((List.pairwise_cons.mp hp).1 e he)
      · rintro ⟨h, hp⟩
        exact ⟨h d (List.mem_cons_self ..), hp⟩

theorem Memory.mem_write {m : List Host.Cell} {a : Nat} {b : Byte} {c : Host.Cell}
    (h : c ∈ Memory.write m a b) : c.1 = a ∨ c ∈ m := by
  induction m with
  | nil => simp_all [Memory.write]
  | cons d rest ih =>
    unfold Memory.write at h
    split at h
    · rcases List.mem_cons.mp h with rfl | h
      · exact .inl rfl
      · exact .inr h
    · split at h
      · rcases List.mem_cons.mp h with rfl | h
        · exact .inl rfl
        · exact .inr (List.mem_cons_of_mem _ h)
      · rcases List.mem_cons.mp h with rfl | h
        · exact .inr (List.mem_cons_self ..)
        · exact (ih h).imp id (List.mem_cons_of_mem _)

theorem Memory.wf_write {m : List Host.Cell} (a : Nat) (b : Byte) (h : Memory.wf m = true) :
    Memory.wf (Memory.write m a b) = true := by
  rw [Memory.wf_iff] at *
  induction m with
  | nil => simp [Memory.write]
  | cons d rest ih =>
    obtain ⟨hd, hp⟩ := List.pairwise_cons.mp h
    unfold Memory.write
    split
    · rename_i hlt
      refine List.pairwise_cons.mpr ⟨fun e he => ?_, h⟩
      rcases List.mem_cons.mp he with rfl | he
      · exact hlt
      · exact hlt.trans (hd e he)
    · split
      · rename_i heq
        exact List.pairwise_cons.mpr ⟨fun e he => by simpa [heq] using hd e he, hp⟩
      · refine List.pairwise_cons.mpr ⟨fun e he => ?_, ih hp⟩
        rcases Memory.mem_write he with he | he
        · omega
        · exact hd e he

theorem Memory.wf_clear {m : List Host.Cell} (lo hi : Nat) (h : Memory.wf m = true) :
    Memory.wf (Memory.clear m lo hi) = true := by
  rw [Memory.wf_iff] at *
  exact h.filter _

theorem Memory.wf_writeBytes (bs : List Byte) {m : List Host.Cell} (a : Nat) (h : Memory.wf m = true) :
    Memory.wf (Memory.writeBytes m a bs) = true := by
  induction bs generalizing m a with
  | nil => exact h
  | cons b rest ih => exact ih _ (Memory.wf_write a b h)

theorem Memory.wf_put {m : List Host.Cell} (a : Nat) (v : Option Byte) (h : Memory.wf m = true) :
    Memory.wf (Memory.put m a v) = true := by
  cases v with
  | none => exact Memory.wf_clear _ _ h
  | some b => exact Memory.wf_write a b h

theorem Memory.wf_putAll (vs : List (Option Byte)) {m : List Host.Cell} (a : Nat) (h : Memory.wf m = true) :
    Memory.wf (Memory.putAll m a vs) = true := by
  induction vs generalizing m a with
  | nil => exact h
  | cons v rest ih => exact ih _ (Memory.wf_put a v h)

theorem Memory.wf_copy {m : List Host.Cell} (dst src n : Nat) (h : Memory.wf m = true) :
    Memory.wf (Memory.copy m dst src n) = true :=
  Memory.wf_putAll _ _ h

/-- No byte at or beyond a bound holds a value, said through reads. -/
theorem Memory.bounded_iff (m : List Host.Cell) (bound : Nat) :
    (∀ c ∈ m, c.1 < bound) ↔ ∀ x, bound ≤ x → Memory.read m x = none := by
  constructor
  · intro h x hx
    by_contra hne
    obtain ⟨c, hc, rfl⟩ := (Memory.read_isSome m x).mp (Option.isSome_iff_ne_none.mpr hne)
    exact absurd (h c hc) (by omega)
  · intro h c hc
    by_contra hge
    have : (Memory.read m c.1).isSome = true := (Memory.read_isSome m c.1).mpr ⟨c, hc, rfl⟩
    rw [h c.1 (by omega)] at this
    cases this

/-- Two memories in canonical form that read alike are equal. -/
theorem Memory.ext_of_read {m m' : List Host.Cell} (h : Memory.wf m = true) (h' : Memory.wf m' = true)
    (hr : ∀ x, Memory.read m x = Memory.read m' x) : m = m' := by
  rw [Memory.wf_iff] at h h'
  induction m generalizing m' with
  | nil =>
    cases m' with
    | nil => rfl
    | cons d rest => simpa [Memory.read_cons] using hr d.1
  | cons c rest ih =>
    cases m' with
    | nil => simpa [Memory.read_cons] using hr c.1
    | cons d rest' =>
      obtain ⟨hc, hp⟩ := List.pairwise_cons.mp h
      obtain ⟨hd, hp'⟩ := List.pairwise_cons.mp h'
      have low : ∀ (l : List Host.Cell) (k x : Nat), (∀ e ∈ l, k < e.1) → x ≤ k → Memory.read l x = none := by
        intro l k x hl hx
        by_contra hne
        obtain ⟨e, he, rfl⟩ := (Memory.read_isSome l x).mp (Option.isSome_iff_ne_none.mpr hne)
        exact absurd (hl e he) (by omega)
      have hcd : c.1 = d.1 := by
        rcases Nat.lt_trichotomy c.1 d.1 with hlt | heq | hlt
        · have := hr c.1
          rw [Memory.read_cons, if_pos rfl, Memory.read_cons, if_neg (by omega),
            low rest' d.1 c.1 hd (by omega)] at this
          cases this
        · exact heq
        · have := hr d.1
          rw [Memory.read_cons, if_neg (by omega), low rest c.1 d.1 hc (by omega), Memory.read_cons,
            if_pos rfl] at this
          cases this
      have hv : c.2 = d.2 := by
        have := hr c.1
        rw [Memory.read_cons, if_pos rfl, Memory.read_cons, if_pos hcd.symm] at this
        exact Option.some.inj this
      have hrest : rest = rest' := by
        refine ih hp hp' fun x => ?_
        have := hr x
        rw [Memory.read_cons, Memory.read_cons] at this
        by_cases hx : c.1 = x
        · rw [low rest c.1 x hc (by omega), low rest' d.1 x hd (by omega)]
        · rwa [if_neg hx, if_neg (by omega)] at this
      rw [hrest, Prod.ext hcd hv]

/-! ### Read-only spaces -/

theorem romRead_eq_some {bytes : List Byte} {off n : Nat} (h : off + n ≤ bytes.length) :
    romRead bytes off n = some ((bytes.drop off).take n) := by
  unfold romRead
  split
  · simp [*]
  · rfl

theorem romRead_length {bytes bs : List Byte} {off n : Nat} (h : romRead bytes off n = some bs) :
    bs.length = n := by
  unfold romRead at h
  split at h
  · obtain rfl := Option.some.inj h
    simp [*]
  · split at h
    · obtain rfl := Option.some.inj h
      simp
      omega
    · cases h

end Sys2Proof.Machine
end

