-- ==== Sys2Proof/Laws/State.lean ====
section
/-! SUPPORT. One lemma per field per named update of the state, each true by rfl, so that no proof unfolds a record
update. -/

namespace Sys2Proof.Machine

variable (s : State)

/-! ### State.raise -/

@[simp] theorem State.raise_lifeState (op : BitVec 8) (t : Trap) : (s.raise op t).lifeState = .faulted := rfl
@[simp] theorem State.raise_inRead (op : BitVec 8) (t : Trap) : (s.raise op t).inRead = s.inRead := rfl
@[simp] theorem State.raise_sizeBytes (op : BitVec 8) (t : Trap) : (s.raise op t).sizeBytes = s.sizeBytes := rfl
@[simp] theorem State.raise_stateReserved (op : BitVec 8) (t : Trap) : (s.raise op t).stateReserved = s.stateReserved := rfl
@[simp] theorem State.raise_wc (op : BitVec 8) (t : Trap) : (s.raise op t).wc = s.wc := rfl
@[simp] theorem State.raise_widthSet (op : BitVec 8) (t : Trap) : (s.raise op t).widthSet = s.widthSet := rfl
@[simp] theorem State.raise_sourceId (op : BitVec 8) (t : Trap) : (s.raise op t).sourceId = s.sourceId := rfl
@[simp] theorem State.raise_sourceSet (op : BitVec 8) (t : Trap) : (s.raise op t).sourceSet = s.sourceSet := rfl
@[simp] theorem State.raise_stateSize (op : BitVec 8) (t : Trap) : (s.raise op t).stateSize = s.stateSize := rfl
@[simp] theorem State.raise_writePos (op : BitVec 8) (t : Trap) : (s.raise op t).writePos = s.writePos := rfl
@[simp] theorem State.raise_writeLen (op : BitVec 8) (t : Trap) : (s.raise op t).writeLen = s.writeLen := rfl
@[simp] theorem State.raise_readCursor (op : BitVec 8) (t : Trap) : (s.raise op t).readCursor = s.readCursor := rfl
@[simp] theorem State.raise_nextExpected (op : BitVec 8) (t : Trap) : (s.raise op t).nextExpected = s.nextExpected := rfl
@[simp] theorem State.raise_arg0 (op : BitVec 8) (t : Trap) : (s.raise op t).arg0 = s.arg0 := rfl
@[simp] theorem State.raise_arg1 (op : BitVec 8) (t : Trap) : (s.raise op t).arg1 = s.arg1 := rfl
@[simp] theorem State.raise_arg2 (op : BitVec 8) (t : Trap) : (s.raise op t).arg2 = s.arg2 := rfl
@[simp] theorem State.raise_arg3 (op : BitVec 8) (t : Trap) : (s.raise op t).arg3 = s.arg3 := rfl
@[simp] theorem State.raise_res0 (op : BitVec 8) (t : Trap) : (s.raise op t).res0 = s.res0 := rfl
@[simp] theorem State.raise_res1 (op : BitVec 8) (t : Trap) : (s.raise op t).res1 = s.res1 := rfl
@[simp] theorem State.raise_gWpos (op : BitVec 8) (t : Trap) : (s.raise op t).gWpos = s.gWpos := rfl
@[simp] theorem State.raise_gWlen (op : BitVec 8) (t : Trap) : (s.raise op t).gWlen = s.gWlen := rfl
@[simp] theorem State.raise_gPhase (op : BitVec 8) (t : Trap) : (s.raise op t).gPhase = s.gPhase := rfl
@[simp] theorem State.raise_rreqPos (op : BitVec 8) (t : Trap) : (s.raise op t).rreqPos = s.rreqPos := rfl
@[simp] theorem State.raise_rreqLen (op : BitVec 8) (t : Trap) : (s.raise op t).rreqLen = s.rreqLen := rfl
@[simp] theorem State.raise_rreqSeek (op : BitVec 8) (t : Trap) : (s.raise op t).rreqSeek = s.rreqSeek := rfl
@[simp] theorem State.raise_faultCause (op : BitVec 8) (t : Trap) : (s.raise op t).faultCause = t.cause := rfl
@[simp] theorem State.raise_faultInfo0 (op : BitVec 8) (t : Trap) : (s.raise op t).faultInfo0 = s.fitInfo .info0 t.info0 := rfl
@[simp] theorem State.raise_faultInfo1 (op : BitVec 8) (t : Trap) : (s.raise op t).faultInfo1 = s.fitInfo .info1 t.info1 := rfl
@[simp] theorem State.raise_faultOp (op : BitVec 8) (t : Trap) : (s.raise op t).faultOp = op := rfl
@[simp] theorem State.raise_storage (op : BitVec 8) (t : Trap) : (s.raise op t).storage = s.storage := rfl
@[simp] theorem State.raise_queue (op : BitVec 8) (t : Trap) : (s.raise op t).queue = s.queue := rfl
@[simp] theorem State.raise_vOpen (op : BitVec 8) (t : Trap) : (s.raise op t).vOpen = s.vOpen := rfl
@[simp] theorem State.raise_vOrder (op : BitVec 8) (t : Trap) : (s.raise op t).vOrder = s.vOrder := rfl
@[simp] theorem State.raise_vPcount (op : BitVec 8) (t : Trap) : (s.raise op t).vPcount = s.vPcount := rfl
@[simp] theorem State.raise_vChannels (op : BitVec 8) (t : Trap) : (s.raise op t).vChannels = s.vChannels := rfl
@[simp] theorem State.raise_vEntropy (op : BitVec 8) (t : Trap) : (s.raise op t).vEntropy = s.vEntropy := rfl
@[simp] theorem State.raise_vVersion (op : BitVec 8) (t : Trap) : (s.raise op t).vVersion = s.vVersion := rfl
@[simp] theorem State.raise_vLength (op : BitVec 8) (t : Trap) : (s.raise op t).vLength = s.vLength := rfl
@[simp] theorem State.raise_vHist (op : BitVec 8) (t : Trap) : (s.raise op t).vHist = s.vHist := rfl
@[simp] theorem State.raise_vDecPos (op : BitVec 8) (t : Trap) : (s.raise op t).vDecPos = s.vDecPos := rfl
@[simp] theorem State.raise_vByteCursor (op : BitVec 8) (t : Trap) : (s.raise op t).vByteCursor = s.vByteCursor := rfl
@[simp] theorem State.raise_vBitPos (op : BitVec 8) (t : Trap) : (s.raise op t).vBitPos = s.vBitPos := rfl
@[simp] theorem State.raise_vSkipBase (op : BitVec 8) (t : Trap) : (s.raise op t).vSkipBase = s.vSkipBase := rfl
@[simp] theorem State.raise_vSkipCount (op : BitVec 8) (t : Trap) : (s.raise op t).vSkipCount = s.vSkipCount := rfl
@[simp] theorem State.raise_hTab (op : BitVec 8) (t : Trap) : (s.raise op t).hTab = s.hTab := rfl
@[simp] theorem State.raise_hBuilt (op : BitVec 8) (t : Trap) : (s.raise op t).hBuilt = s.hBuilt := rfl
@[simp] theorem State.raise_getSuspended (op : BitVec 8) (t : Trap) : (s.raise op t).getSuspended = false := rfl
@[simp] theorem State.raise_held (op : BitVec 8) (t : Trap) : (s.raise op t).held = none := rfl
@[simp] theorem State.raise_codecVersions (op : BitVec 8) (t : Trap) : (s.raise op t).codecVersions = s.codecVersions := rfl
@[simp] theorem State.raise_media (op : BitVec 8) (t : Trap) : (s.raise op t).media = s.media := rfl
@[simp] theorem State.raise_srcPhase (op : BitVec 8) (t : Trap) : (s.raise op t).srcPhase = s.srcPhase := rfl
@[simp] theorem State.raise_inputs (op : BitVec 8) (t : Trap) : (s.raise op t).inputs = s.inputs := rfl
@[simp] theorem State.raise_hostWord (op : BitVec 8) (t : Trap) : (s.raise op t).hostWord = s.hostWord := rfl
@[simp] theorem State.raise_hostBytes (op : BitVec 8) (t : Trap) : (s.raise op t).hostBytes = s.hostBytes := rfl
@[simp] theorem State.raise_freeTick (op : BitVec 8) (t : Trap) : (s.raise op t).freeTick = s.freeTick := rfl
@[simp] theorem State.raise_bytesPerSample (op : BitVec 8) (t : Trap) : (s.raise op t).bytesPerSample = s.bytesPerSample := rfl
@[simp] theorem State.raise_granularity (op : BitVec 8) (t : Trap) : (s.raise op t).granularity = s.granularity := rfl
@[simp] theorem State.raise_capacity (op : BitVec 8) (t : Trap) : (s.raise op t).capacity = s.capacity := rfl
@[simp] theorem State.raise_storageSize (op : BitVec 8) (t : Trap) : (s.raise op t).storageSize = s.storageSize := rfl
@[simp] theorem State.raise_boundMedia (op : BitVec 8) (t : Trap) : (s.raise op t).boundMedia = s.boundMedia := rfl
@[simp] theorem State.raise_stream (op : BitVec 8) (t : Trap) : (s.raise op t).stream = s.stream := rfl
@[simp] theorem State.raise_header (op : BitVec 8) (t : Trap) : (s.raise op t).header = s.header := rfl
@[simp] theorem State.raise_drained (op : BitVec 8) (t : Trap) : (s.raise op t).drained = s.drained := rfl
@[simp] theorem State.raise_queueHasRoom (op : BitVec 8) (t : Trap) : (s.raise op t).queueHasRoom = s.queueHasRoom := rfl
@[simp] theorem State.raise_codebookEnd (op : BitVec 8) (t : Trap) : (s.raise op t).codebookEnd = s.codebookEnd := rfl
@[simp] theorem State.raise_windowEnd (op : BitVec 8) (t : Trap) : (s.raise op t).windowEnd = s.windowEnd := rfl
@[simp] theorem State.raise_flushed (op : BitVec 8) (t : Trap) : (s.raise op t).flushed = s.flushed := rfl
@[simp] theorem State.raise_hazardAt (op : BitVec 8) (t : Trap) (a b : Nat) : (s.raise op t).hazardAt a b = s.hazardAt a b := rfl

/-! ### State.clearBytes -/

@[simp] theorem State.clearBytes_lifeState (lo hi : Nat) : (s.clearBytes lo hi).lifeState = s.lifeState := rfl
@[simp] theorem State.clearBytes_inRead (lo hi : Nat) : (s.clearBytes lo hi).inRead = s.inRead := rfl
@[simp] theorem State.clearBytes_sizeBytes (lo hi : Nat) : (s.clearBytes lo hi).sizeBytes = s.sizeBytes := rfl
@[simp] theorem State.clearBytes_stateReserved (lo hi : Nat) : (s.clearBytes lo hi).stateReserved = s.stateReserved := rfl
@[simp] theorem State.clearBytes_wc (lo hi : Nat) : (s.clearBytes lo hi).wc = s.wc := rfl
@[simp] theorem State.clearBytes_widthSet (lo hi : Nat) : (s.clearBytes lo hi).widthSet = s.widthSet := rfl
@[simp] theorem State.clearBytes_sourceId (lo hi : Nat) : (s.clearBytes lo hi).sourceId = s.sourceId := rfl
@[simp] theorem State.clearBytes_sourceSet (lo hi : Nat) : (s.clearBytes lo hi).sourceSet = s.sourceSet := rfl
@[simp] theorem State.clearBytes_stateSize (lo hi : Nat) : (s.clearBytes lo hi).stateSize = s.stateSize := rfl
@[simp] theorem State.clearBytes_writePos (lo hi : Nat) : (s.clearBytes lo hi).writePos = s.writePos := rfl
@[simp] theorem State.clearBytes_writeLen (lo hi : Nat) : (s.clearBytes lo hi).writeLen = s.writeLen := rfl
@[simp] theorem State.clearBytes_readCursor (lo hi : Nat) : (s.clearBytes lo hi).readCursor = s.readCursor := rfl
@[simp] theorem State.clearBytes_nextExpected (lo hi : Nat) : (s.clearBytes lo hi).nextExpected = s.nextExpected := rfl
@[simp] theorem State.clearBytes_arg0 (lo hi : Nat) : (s.clearBytes lo hi).arg0 = s.arg0 := rfl
@[simp] theorem State.clearBytes_arg1 (lo hi : Nat) : (s.clearBytes lo hi).arg1 = s.arg1 := rfl
@[simp] theorem State.clearBytes_arg2 (lo hi : Nat) : (s.clearBytes lo hi).arg2 = s.arg2 := rfl
@[simp] theorem State.clearBytes_arg3 (lo hi : Nat) : (s.clearBytes lo hi).arg3 = s.arg3 := rfl
@[simp] theorem State.clearBytes_res0 (lo hi : Nat) : (s.clearBytes lo hi).res0 = s.res0 := rfl
@[simp] theorem State.clearBytes_res1 (lo hi : Nat) : (s.clearBytes lo hi).res1 = s.res1 := rfl
@[simp] theorem State.clearBytes_gWpos (lo hi : Nat) : (s.clearBytes lo hi).gWpos = s.gWpos := rfl
@[simp] theorem State.clearBytes_gWlen (lo hi : Nat) : (s.clearBytes lo hi).gWlen = s.gWlen := rfl
@[simp] theorem State.clearBytes_gPhase (lo hi : Nat) : (s.clearBytes lo hi).gPhase = s.gPhase := rfl
@[simp] theorem State.clearBytes_rreqPos (lo hi : Nat) : (s.clearBytes lo hi).rreqPos = s.rreqPos := rfl
@[simp] theorem State.clearBytes_rreqLen (lo hi : Nat) : (s.clearBytes lo hi).rreqLen = s.rreqLen := rfl
@[simp] theorem State.clearBytes_rreqSeek (lo hi : Nat) : (s.clearBytes lo hi).rreqSeek = s.rreqSeek := rfl
@[simp] theorem State.clearBytes_faultCause (lo hi : Nat) : (s.clearBytes lo hi).faultCause = s.faultCause := rfl
@[simp] theorem State.clearBytes_faultInfo0 (lo hi : Nat) : (s.clearBytes lo hi).faultInfo0 = s.faultInfo0 := rfl
@[simp] theorem State.clearBytes_faultInfo1 (lo hi : Nat) : (s.clearBytes lo hi).faultInfo1 = s.faultInfo1 := rfl
@[simp] theorem State.clearBytes_faultOp (lo hi : Nat) : (s.clearBytes lo hi).faultOp = s.faultOp := rfl
@[simp] theorem State.clearBytes_storage (lo hi : Nat) : (s.clearBytes lo hi).storage = Memory.clear s.storage lo hi := rfl
@[simp] theorem State.clearBytes_queue (lo hi : Nat) : (s.clearBytes lo hi).queue = s.queue := rfl
@[simp] theorem State.clearBytes_vOpen (lo hi : Nat) : (s.clearBytes lo hi).vOpen = s.vOpen := rfl
@[simp] theorem State.clearBytes_vOrder (lo hi : Nat) : (s.clearBytes lo hi).vOrder = s.vOrder := rfl
@[simp] theorem State.clearBytes_vPcount (lo hi : Nat) : (s.clearBytes lo hi).vPcount = s.vPcount := rfl
@[simp] theorem State.clearBytes_vChannels (lo hi : Nat) : (s.clearBytes lo hi).vChannels = s.vChannels := rfl
@[simp] theorem State.clearBytes_vEntropy (lo hi : Nat) : (s.clearBytes lo hi).vEntropy = s.vEntropy := rfl
@[simp] theorem State.clearBytes_vVersion (lo hi : Nat) : (s.clearBytes lo hi).vVersion = s.vVersion := rfl
@[simp] theorem State.clearBytes_vLength (lo hi : Nat) : (s.clearBytes lo hi).vLength = s.vLength := rfl
@[simp] theorem State.clearBytes_vHist (lo hi : Nat) : (s.clearBytes lo hi).vHist = s.vHist := rfl
@[simp] theorem State.clearBytes_vDecPos (lo hi : Nat) : (s.clearBytes lo hi).vDecPos = s.vDecPos := rfl
@[simp] theorem State.clearBytes_vByteCursor (lo hi : Nat) : (s.clearBytes lo hi).vByteCursor = s.vByteCursor := rfl
@[simp] theorem State.clearBytes_vBitPos (lo hi : Nat) : (s.clearBytes lo hi).vBitPos = s.vBitPos := rfl
@[simp] theorem State.clearBytes_vSkipBase (lo hi : Nat) : (s.clearBytes lo hi).vSkipBase = s.vSkipBase := rfl
@[simp] theorem State.clearBytes_vSkipCount (lo hi : Nat) : (s.clearBytes lo hi).vSkipCount = s.vSkipCount := rfl
@[simp] theorem State.clearBytes_hTab (lo hi : Nat) : (s.clearBytes lo hi).hTab = s.hTab := rfl
@[simp] theorem State.clearBytes_hBuilt (lo hi : Nat) : (s.clearBytes lo hi).hBuilt = s.hBuilt := rfl
@[simp] theorem State.clearBytes_getSuspended (lo hi : Nat) : (s.clearBytes lo hi).getSuspended = s.getSuspended := rfl
@[simp] theorem State.clearBytes_held (lo hi : Nat) : (s.clearBytes lo hi).held = s.held := rfl
@[simp] theorem State.clearBytes_codecVersions (lo hi : Nat) : (s.clearBytes lo hi).codecVersions = s.codecVersions := rfl
@[simp] theorem State.clearBytes_media (lo hi : Nat) : (s.clearBytes lo hi).media = s.media := rfl
@[simp] theorem State.clearBytes_srcPhase (lo hi : Nat) : (s.clearBytes lo hi).srcPhase = s.srcPhase := rfl
@[simp] theorem State.clearBytes_inputs (lo hi : Nat) : (s.clearBytes lo hi).inputs = s.inputs := rfl
@[simp] theorem State.clearBytes_hostWord (lo hi : Nat) : (s.clearBytes lo hi).hostWord = s.hostWord := rfl
@[simp] theorem State.clearBytes_hostBytes (lo hi : Nat) : (s.clearBytes lo hi).hostBytes = s.hostBytes := rfl
@[simp] theorem State.clearBytes_freeTick (lo hi : Nat) : (s.clearBytes lo hi).freeTick = s.freeTick := rfl
@[simp] theorem State.clearBytes_bytesPerSample (lo hi : Nat) : (s.clearBytes lo hi).bytesPerSample = s.bytesPerSample := rfl
@[simp] theorem State.clearBytes_granularity (lo hi : Nat) : (s.clearBytes lo hi).granularity = s.granularity := rfl
@[simp] theorem State.clearBytes_capacity (lo hi : Nat) : (s.clearBytes lo hi).capacity = s.capacity := rfl
@[simp] theorem State.clearBytes_storageSize (lo hi : Nat) : (s.clearBytes lo hi).storageSize = s.storageSize := rfl
@[simp] theorem State.clearBytes_boundMedia (lo hi : Nat) : (s.clearBytes lo hi).boundMedia = s.boundMedia := rfl
@[simp] theorem State.clearBytes_stream (lo hi : Nat) : (s.clearBytes lo hi).stream = s.stream := rfl
@[simp] theorem State.clearBytes_header (lo hi : Nat) : (s.clearBytes lo hi).header = s.header := rfl
@[simp] theorem State.clearBytes_drained (lo hi : Nat) : (s.clearBytes lo hi).drained = s.drained := rfl
@[simp] theorem State.clearBytes_queueHasRoom (lo hi : Nat) : (s.clearBytes lo hi).queueHasRoom = s.queueHasRoom := rfl
@[simp] theorem State.clearBytes_codebookEnd (lo hi : Nat) : (s.clearBytes lo hi).codebookEnd = s.codebookEnd := rfl
@[simp] theorem State.clearBytes_windowEnd (lo hi : Nat) : (s.clearBytes lo hi).windowEnd = s.windowEnd := rfl
@[simp] theorem State.clearBytes_flushed (lo hi : Nat) : (s.clearBytes lo hi).flushed = s.flushed := rfl
@[simp] theorem State.clearBytes_hazardAt (lo hi : Nat) (a b : Nat) : (s.clearBytes lo hi).hazardAt a b = s.hazardAt a b := rfl

/-! ### State.flushCursors -/

@[simp] theorem State.flushCursors_lifeState : (s.flushCursors).lifeState = s.lifeState := rfl
@[simp] theorem State.flushCursors_inRead : (s.flushCursors).inRead = s.inRead := rfl
@[simp] theorem State.flushCursors_sizeBytes : (s.flushCursors).sizeBytes = s.sizeBytes := rfl
@[simp] theorem State.flushCursors_stateReserved : (s.flushCursors).stateReserved = s.stateReserved := rfl
@[simp] theorem State.flushCursors_wc : (s.flushCursors).wc = s.wc := rfl
@[simp] theorem State.flushCursors_widthSet : (s.flushCursors).widthSet = s.widthSet := rfl
@[simp] theorem State.flushCursors_sourceId : (s.flushCursors).sourceId = s.sourceId := rfl
@[simp] theorem State.flushCursors_sourceSet : (s.flushCursors).sourceSet = s.sourceSet := rfl
@[simp] theorem State.flushCursors_stateSize : (s.flushCursors).stateSize = s.stateSize := rfl
@[simp] theorem State.flushCursors_writePos : (s.flushCursors).writePos = 0 := rfl
@[simp] theorem State.flushCursors_writeLen : (s.flushCursors).writeLen = 0 := rfl
@[simp] theorem State.flushCursors_readCursor : (s.flushCursors).readCursor = 0 := rfl
@[simp] theorem State.flushCursors_nextExpected : (s.flushCursors).nextExpected = 0xFFFFFFFF := rfl
@[simp] theorem State.flushCursors_arg0 : (s.flushCursors).arg0 = s.arg0 := rfl
@[simp] theorem State.flushCursors_arg1 : (s.flushCursors).arg1 = s.arg1 := rfl
@[simp] theorem State.flushCursors_arg2 : (s.flushCursors).arg2 = s.arg2 := rfl
@[simp] theorem State.flushCursors_arg3 : (s.flushCursors).arg3 = s.arg3 := rfl
@[simp] theorem State.flushCursors_res0 : (s.flushCursors).res0 = s.res0 := rfl
@[simp] theorem State.flushCursors_res1 : (s.flushCursors).res1 = s.res1 := rfl
@[simp] theorem State.flushCursors_gWpos : (s.flushCursors).gWpos = s.gWpos := rfl
@[simp] theorem State.flushCursors_gWlen : (s.flushCursors).gWlen = s.gWlen := rfl
@[simp] theorem State.flushCursors_gPhase : (s.flushCursors).gPhase = s.gPhase := rfl
@[simp] theorem State.flushCursors_rreqPos : (s.flushCursors).rreqPos = s.rreqPos := rfl
@[simp] theorem State.flushCursors_rreqLen : (s.flushCursors).rreqLen = s.rreqLen := rfl
@[simp] theorem State.flushCursors_rreqSeek : (s.flushCursors).rreqSeek = s.rreqSeek := rfl
@[simp] theorem State.flushCursors_faultCause : (s.flushCursors).faultCause = s.faultCause := rfl
@[simp] theorem State.flushCursors_faultInfo0 : (s.flushCursors).faultInfo0 = s.faultInfo0 := rfl
@[simp] theorem State.flushCursors_faultInfo1 : (s.flushCursors).faultInfo1 = s.faultInfo1 := rfl
@[simp] theorem State.flushCursors_faultOp : (s.flushCursors).faultOp = s.faultOp := rfl
@[simp] theorem State.flushCursors_storage : (s.flushCursors).storage = s.storage := rfl
@[simp] theorem State.flushCursors_queue : (s.flushCursors).queue = s.queue := rfl
@[simp] theorem State.flushCursors_vOpen : (s.flushCursors).vOpen = s.vOpen := rfl
@[simp] theorem State.flushCursors_vOrder : (s.flushCursors).vOrder = s.vOrder := rfl
@[simp] theorem State.flushCursors_vPcount : (s.flushCursors).vPcount = s.vPcount := rfl
@[simp] theorem State.flushCursors_vChannels : (s.flushCursors).vChannels = s.vChannels := rfl
@[simp] theorem State.flushCursors_vEntropy : (s.flushCursors).vEntropy = s.vEntropy := rfl
@[simp] theorem State.flushCursors_vVersion : (s.flushCursors).vVersion = s.vVersion := rfl
@[simp] theorem State.flushCursors_vLength : (s.flushCursors).vLength = s.vLength := rfl
@[simp] theorem State.flushCursors_vHist : (s.flushCursors).vHist = s.vHist := rfl
@[simp] theorem State.flushCursors_vDecPos : (s.flushCursors).vDecPos = s.vDecPos := rfl
@[simp] theorem State.flushCursors_vByteCursor : (s.flushCursors).vByteCursor = s.vByteCursor := rfl
@[simp] theorem State.flushCursors_vBitPos : (s.flushCursors).vBitPos = s.vBitPos := rfl
@[simp] theorem State.flushCursors_vSkipBase : (s.flushCursors).vSkipBase = s.vSkipBase := rfl
@[simp] theorem State.flushCursors_vSkipCount : (s.flushCursors).vSkipCount = s.vSkipCount := rfl
@[simp] theorem State.flushCursors_hTab : (s.flushCursors).hTab = s.hTab := rfl
@[simp] theorem State.flushCursors_hBuilt : (s.flushCursors).hBuilt = s.hBuilt := rfl
@[simp] theorem State.flushCursors_getSuspended : (s.flushCursors).getSuspended = s.getSuspended := rfl
@[simp] theorem State.flushCursors_held : (s.flushCursors).held = s.held := rfl
@[simp] theorem State.flushCursors_codecVersions : (s.flushCursors).codecVersions = s.codecVersions := rfl
@[simp] theorem State.flushCursors_media : (s.flushCursors).media = s.media := rfl
@[simp] theorem State.flushCursors_srcPhase : (s.flushCursors).srcPhase = s.srcPhase := rfl
@[simp] theorem State.flushCursors_inputs : (s.flushCursors).inputs = s.inputs := rfl
@[simp] theorem State.flushCursors_hostWord : (s.flushCursors).hostWord = s.hostWord := rfl
@[simp] theorem State.flushCursors_hostBytes : (s.flushCursors).hostBytes = s.hostBytes := rfl
@[simp] theorem State.flushCursors_freeTick : (s.flushCursors).freeTick = s.freeTick := rfl
@[simp] theorem State.flushCursors_bytesPerSample : (s.flushCursors).bytesPerSample = s.bytesPerSample := rfl
@[simp] theorem State.flushCursors_granularity : (s.flushCursors).granularity = s.granularity := rfl
@[simp] theorem State.flushCursors_capacity : (s.flushCursors).capacity = s.capacity := rfl
@[simp] theorem State.flushCursors_storageSize : (s.flushCursors).storageSize = s.storageSize := rfl
@[simp] theorem State.flushCursors_boundMedia : (s.flushCursors).boundMedia = s.boundMedia := rfl
@[simp] theorem State.flushCursors_stream : (s.flushCursors).stream = s.stream := rfl
@[simp] theorem State.flushCursors_header : (s.flushCursors).header = s.header := rfl
@[simp] theorem State.flushCursors_drained : (s.flushCursors).drained = s.drained := rfl
@[simp] theorem State.flushCursors_queueHasRoom : (s.flushCursors).queueHasRoom = s.queueHasRoom := rfl
@[simp] theorem State.flushCursors_codebookEnd : (s.flushCursors).codebookEnd = s.codebookEnd := rfl
@[simp] theorem State.flushCursors_hazardAt (a b : Nat) : (s.flushCursors).hazardAt a b = s.hazardAt a b := rfl

/-! ### State.requestRead -/

@[simp] theorem State.requestRead_lifeState (pos len : Int) (seeking : Bool) : (s.requestRead pos len seeking).lifeState = s.lifeState := rfl
@[simp] theorem State.requestRead_inRead (pos len : Int) (seeking : Bool) : (s.requestRead pos len seeking).inRead = true := rfl
@[simp] theorem State.requestRead_sizeBytes (pos len : Int) (seeking : Bool) : (s.requestRead pos len seeking).sizeBytes = s.sizeBytes := rfl
@[simp] theorem State.requestRead_stateReserved (pos len : Int) (seeking : Bool) : (s.requestRead pos len seeking).stateReserved = s.stateReserved := rfl
@[simp] theorem State.requestRead_wc (pos len : Int) (seeking : Bool) : (s.requestRead pos len seeking).wc = s.wc := rfl
@[simp] theorem State.requestRead_widthSet (pos len : Int) (seeking : Bool) : (s.requestRead pos len seeking).widthSet = s.widthSet := rfl
@[simp] theorem State.requestRead_sourceId (pos len : Int) (seeking : Bool) : (s.requestRead pos len seeking).sourceId = s.sourceId := rfl
@[simp] theorem State.requestRead_sourceSet (pos len : Int) (seeking : Bool) : (s.requestRead pos len seeking).sourceSet = s.sourceSet := rfl
@[simp] theorem State.requestRead_stateSize (pos len : Int) (seeking : Bool) : (s.requestRead pos len seeking).stateSize = s.stateSize := rfl
@[simp] theorem State.requestRead_writePos (pos len : Int) (seeking : Bool) : (s.requestRead pos len seeking).writePos = s.writePos := rfl
@[simp] theorem State.requestRead_writeLen (pos len : Int) (seeking : Bool) : (s.requestRead pos len seeking).writeLen = s.writeLen := rfl
@[simp] theorem State.requestRead_readCursor (pos len : Int) (seeking : Bool) : (s.requestRead pos len seeking).readCursor = s.readCursor := rfl
@[simp] theorem State.requestRead_nextExpected (pos len : Int) (seeking : Bool) : (s.requestRead pos len seeking).nextExpected = s.nextExpected := rfl
@[simp] theorem State.requestRead_arg0 (pos len : Int) (seeking : Bool) : (s.requestRead pos len seeking).arg0 = s.arg0 := rfl
@[simp] theorem State.requestRead_arg1 (pos len : Int) (seeking : Bool) : (s.requestRead pos len seeking).arg1 = s.arg1 := rfl
@[simp] theorem State.requestRead_arg2 (pos len : Int) (seeking : Bool) : (s.requestRead pos len seeking).arg2 = s.arg2 := rfl
@[simp] theorem State.requestRead_arg3 (pos len : Int) (seeking : Bool) : (s.requestRead pos len seeking).arg3 = s.arg3 := rfl
@[simp] theorem State.requestRead_res0 (pos len : Int) (seeking : Bool) : (s.requestRead pos len seeking).res0 = s.res0 := rfl
@[simp] theorem State.requestRead_res1 (pos len : Int) (seeking : Bool) : (s.requestRead pos len seeking).res1 = s.res1 := rfl
@[simp] theorem State.requestRead_gWpos (pos len : Int) (seeking : Bool) : (s.requestRead pos len seeking).gWpos = s.gWpos := rfl
@[simp] theorem State.requestRead_gWlen (pos len : Int) (seeking : Bool) : (s.requestRead pos len seeking).gWlen = s.gWlen := rfl
@[simp] theorem State.requestRead_gPhase (pos len : Int) (seeking : Bool) : (s.requestRead pos len seeking).gPhase = s.gPhase := rfl
@[simp] theorem State.requestRead_rreqPos (pos len : Int) (seeking : Bool) : (s.requestRead pos len seeking).rreqPos = s.fitS32 .rreqPos pos := rfl
@[simp] theorem State.requestRead_rreqLen (pos len : Int) (seeking : Bool) : (s.requestRead pos len seeking).rreqLen = s.fitS32 .rreqLen len := rfl
@[simp] theorem State.requestRead_rreqSeek (pos len : Int) (seeking : Bool) : (s.requestRead pos len seeking).rreqSeek = seeking := rfl
@[simp] theorem State.requestRead_faultCause (pos len : Int) (seeking : Bool) : (s.requestRead pos len seeking).faultCause = s.faultCause := rfl
@[simp] theorem State.requestRead_faultInfo0 (pos len : Int) (seeking : Bool) : (s.requestRead pos len seeking).faultInfo0 = s.faultInfo0 := rfl
@[simp] theorem State.requestRead_faultInfo1 (pos len : Int) (seeking : Bool) : (s.requestRead pos len seeking).faultInfo1 = s.faultInfo1 := rfl
@[simp] theorem State.requestRead_faultOp (pos len : Int) (seeking : Bool) : (s.requestRead pos len seeking).faultOp = s.faultOp := rfl
@[simp] theorem State.requestRead_storage (pos len : Int) (seeking : Bool) : (s.requestRead pos len seeking).storage = s.storage := rfl
@[simp] theorem State.requestRead_queue (pos len : Int) (seeking : Bool) : (s.requestRead pos len seeking).queue = s.queue := rfl
@[simp] theorem State.requestRead_vOpen (pos len : Int) (seeking : Bool) : (s.requestRead pos len seeking).vOpen = s.vOpen := rfl
@[simp] theorem State.requestRead_vOrder (pos len : Int) (seeking : Bool) : (s.requestRead pos len seeking).vOrder = s.vOrder := rfl
@[simp] theorem State.requestRead_vPcount (pos len : Int) (seeking : Bool) : (s.requestRead pos len seeking).vPcount = s.vPcount := rfl
@[simp] theorem State.requestRead_vChannels (pos len : Int) (seeking : Bool) : (s.requestRead pos len seeking).vChannels = s.vChannels := rfl
@[simp] theorem State.requestRead_vEntropy (pos len : Int) (seeking : Bool) : (s.requestRead pos len seeking).vEntropy = s.vEntropy := rfl
@[simp] theorem State.requestRead_vVersion (pos len : Int) (seeking : Bool) : (s.requestRead pos len seeking).vVersion = s.vVersion := rfl
@[simp] theorem State.requestRead_vLength (pos len : Int) (seeking : Bool) : (s.requestRead pos len seeking).vLength = s.vLength := rfl
@[simp] theorem State.requestRead_vHist (pos len : Int) (seeking : Bool) : (s.requestRead pos len seeking).vHist = s.vHist := rfl
@[simp] theorem State.requestRead_vDecPos (pos len : Int) (seeking : Bool) : (s.requestRead pos len seeking).vDecPos = s.vDecPos := rfl
@[simp] theorem State.requestRead_vByteCursor (pos len : Int) (seeking : Bool) : (s.requestRead pos len seeking).vByteCursor = s.vByteCursor := rfl
@[simp] theorem State.requestRead_vBitPos (pos len : Int) (seeking : Bool) : (s.requestRead pos len seeking).vBitPos = s.vBitPos := rfl
@[simp] theorem State.requestRead_vSkipBase (pos len : Int) (seeking : Bool) : (s.requestRead pos len seeking).vSkipBase = s.vSkipBase := rfl
@[simp] theorem State.requestRead_vSkipCount (pos len : Int) (seeking : Bool) : (s.requestRead pos len seeking).vSkipCount = s.vSkipCount := rfl
@[simp] theorem State.requestRead_hTab (pos len : Int) (seeking : Bool) : (s.requestRead pos len seeking).hTab = s.hTab := rfl
@[simp] theorem State.requestRead_hBuilt (pos len : Int) (seeking : Bool) : (s.requestRead pos len seeking).hBuilt = s.hBuilt := rfl
@[simp] theorem State.requestRead_getSuspended (pos len : Int) (seeking : Bool) : (s.requestRead pos len seeking).getSuspended = true := rfl
@[simp] theorem State.requestRead_held (pos len : Int) (seeking : Bool) : (s.requestRead pos len seeking).held = s.held := rfl
@[simp] theorem State.requestRead_codecVersions (pos len : Int) (seeking : Bool) : (s.requestRead pos len seeking).codecVersions = s.codecVersions := rfl
@[simp] theorem State.requestRead_media (pos len : Int) (seeking : Bool) : (s.requestRead pos len seeking).media = s.media := rfl
@[simp] theorem State.requestRead_srcPhase (pos len : Int) (seeking : Bool) : (s.requestRead pos len seeking).srcPhase = .start := rfl
@[simp] theorem State.requestRead_inputs (pos len : Int) (seeking : Bool) : (s.requestRead pos len seeking).inputs = s.inputs := rfl
@[simp] theorem State.requestRead_hostWord (pos len : Int) (seeking : Bool) : (s.requestRead pos len seeking).hostWord = s.hostWord := rfl
@[simp] theorem State.requestRead_hostBytes (pos len : Int) (seeking : Bool) : (s.requestRead pos len seeking).hostBytes = s.hostBytes := rfl
@[simp] theorem State.requestRead_freeTick (pos len : Int) (seeking : Bool) : (s.requestRead pos len seeking).freeTick = s.freeTick := rfl
@[simp] theorem State.requestRead_bytesPerSample (pos len : Int) (seeking : Bool) : (s.requestRead pos len seeking).bytesPerSample = s.bytesPerSample := rfl
@[simp] theorem State.requestRead_granularity (pos len : Int) (seeking : Bool) : (s.requestRead pos len seeking).granularity = s.granularity := rfl
@[simp] theorem State.requestRead_capacity (pos len : Int) (seeking : Bool) : (s.requestRead pos len seeking).capacity = s.capacity := rfl
@[simp] theorem State.requestRead_storageSize (pos len : Int) (seeking : Bool) : (s.requestRead pos len seeking).storageSize = s.storageSize := rfl
@[simp] theorem State.requestRead_boundMedia (pos len : Int) (seeking : Bool) : (s.requestRead pos len seeking).boundMedia = s.boundMedia := rfl
@[simp] theorem State.requestRead_stream (pos len : Int) (seeking : Bool) : (s.requestRead pos len seeking).stream = s.stream := rfl
@[simp] theorem State.requestRead_header (pos len : Int) (seeking : Bool) : (s.requestRead pos len seeking).header = s.header := rfl
@[simp] theorem State.requestRead_drained (pos len : Int) (seeking : Bool) : (s.requestRead pos len seeking).drained = s.drained := rfl
@[simp] theorem State.requestRead_queueHasRoom (pos len : Int) (seeking : Bool) : (s.requestRead pos len seeking).queueHasRoom = s.queueHasRoom := rfl
@[simp] theorem State.requestRead_codebookEnd (pos len : Int) (seeking : Bool) : (s.requestRead pos len seeking).codebookEnd = s.codebookEnd := rfl
@[simp] theorem State.requestRead_windowEnd (pos len : Int) (seeking : Bool) : (s.requestRead pos len seeking).windowEnd = s.windowEnd := rfl
@[simp] theorem State.requestRead_flushed (pos len : Int) (seeking : Bool) : (s.requestRead pos len seeking).flushed = s.flushed := rfl
@[simp] theorem State.requestRead_hazardAt (pos len : Int) (seeking : Bool) (a b : Nat) : (s.requestRead pos len seeking).hazardAt a b = s.hazardAt a b := rfl

/-! ### State.dropSamples -/

@[simp] theorem State.dropSamples_lifeState (idx : Nat) : (s.dropSamples idx).lifeState = s.lifeState := rfl
@[simp] theorem State.dropSamples_inRead (idx : Nat) : (s.dropSamples idx).inRead = s.inRead := rfl
@[simp] theorem State.dropSamples_sizeBytes (idx : Nat) : (s.dropSamples idx).sizeBytes = s.sizeBytes := rfl
@[simp] theorem State.dropSamples_stateReserved (idx : Nat) : (s.dropSamples idx).stateReserved = s.stateReserved := rfl
@[simp] theorem State.dropSamples_wc (idx : Nat) : (s.dropSamples idx).wc = s.wc := rfl
@[simp] theorem State.dropSamples_widthSet (idx : Nat) : (s.dropSamples idx).widthSet = s.widthSet := rfl
@[simp] theorem State.dropSamples_sourceId (idx : Nat) : (s.dropSamples idx).sourceId = s.sourceId := rfl
@[simp] theorem State.dropSamples_sourceSet (idx : Nat) : (s.dropSamples idx).sourceSet = s.sourceSet := rfl
@[simp] theorem State.dropSamples_stateSize (idx : Nat) : (s.dropSamples idx).stateSize = s.stateSize := rfl
@[simp] theorem State.dropSamples_writePos (idx : Nat) :
    (s.dropSamples idx).writePos = s.fitS32 .writePos (s.writePos.toInt + idx) := rfl
@[simp] theorem State.dropSamples_writeLen (idx : Nat) :
    (s.dropSamples idx).writeLen = BitVec.ofNat 32 (s.writeLen.toInt.toNat - idx) := rfl
@[simp] theorem State.dropSamples_readCursor (idx : Nat) :
    (s.dropSamples idx).readCursor = BitVec.ofInt 32 (max (s.readCursor.toInt - idx) 0) := rfl
@[simp] theorem State.dropSamples_nextExpected (idx : Nat) : (s.dropSamples idx).nextExpected = s.nextExpected := rfl
@[simp] theorem State.dropSamples_arg0 (idx : Nat) : (s.dropSamples idx).arg0 = s.arg0 := rfl
@[simp] theorem State.dropSamples_arg1 (idx : Nat) : (s.dropSamples idx).arg1 = s.arg1 := rfl
@[simp] theorem State.dropSamples_arg2 (idx : Nat) : (s.dropSamples idx).arg2 = s.arg2 := rfl
@[simp] theorem State.dropSamples_arg3 (idx : Nat) : (s.dropSamples idx).arg3 = s.arg3 := rfl
@[simp] theorem State.dropSamples_res0 (idx : Nat) : (s.dropSamples idx).res0 = s.res0 := rfl
@[simp] theorem State.dropSamples_res1 (idx : Nat) : (s.dropSamples idx).res1 = s.res1 := rfl
@[simp] theorem State.dropSamples_gWpos (idx : Nat) : (s.dropSamples idx).gWpos = s.gWpos := rfl
@[simp] theorem State.dropSamples_gWlen (idx : Nat) : (s.dropSamples idx).gWlen = s.gWlen := rfl
@[simp] theorem State.dropSamples_gPhase (idx : Nat) : (s.dropSamples idx).gPhase = s.gPhase := rfl
@[simp] theorem State.dropSamples_rreqPos (idx : Nat) : (s.dropSamples idx).rreqPos = s.rreqPos := rfl
@[simp] theorem State.dropSamples_rreqLen (idx : Nat) : (s.dropSamples idx).rreqLen = s.rreqLen := rfl
@[simp] theorem State.dropSamples_rreqSeek (idx : Nat) : (s.dropSamples idx).rreqSeek = s.rreqSeek := rfl
@[simp] theorem State.dropSamples_faultCause (idx : Nat) : (s.dropSamples idx).faultCause = s.faultCause := rfl
@[simp] theorem State.dropSamples_faultInfo0 (idx : Nat) : (s.dropSamples idx).faultInfo0 = s.faultInfo0 := rfl
@[simp] theorem State.dropSamples_faultInfo1 (idx : Nat) : (s.dropSamples idx).faultInfo1 = s.faultInfo1 := rfl
@[simp] theorem State.dropSamples_faultOp (idx : Nat) : (s.dropSamples idx).faultOp = s.faultOp := rfl
@[simp] theorem State.dropSamples_storage (idx : Nat) :
    (s.dropSamples idx).storage = Memory.clear (Memory.copy s.storage 0 (idx * s.bytesPerSample) ((s.writeLen.toInt.toNat - idx) * s.bytesPerSample))
      ((s.writeLen.toInt.toNat - idx) * s.bytesPerSample) (s.writeLen.toInt.toNat * s.bytesPerSample) := rfl
@[simp] theorem State.dropSamples_queue (idx : Nat) : (s.dropSamples idx).queue = s.queue := rfl
@[simp] theorem State.dropSamples_vOpen (idx : Nat) : (s.dropSamples idx).vOpen = s.vOpen := rfl
@[simp] theorem State.dropSamples_vOrder (idx : Nat) : (s.dropSamples idx).vOrder = s.vOrder := rfl
@[simp] theorem State.dropSamples_vPcount (idx : Nat) : (s.dropSamples idx).vPcount = s.vPcount := rfl
@[simp] theorem State.dropSamples_vChannels (idx : Nat) : (s.dropSamples idx).vChannels = s.vChannels := rfl
@[simp] theorem State.dropSamples_vEntropy (idx : Nat) : (s.dropSamples idx).vEntropy = s.vEntropy := rfl
@[simp] theorem State.dropSamples_vVersion (idx : Nat) : (s.dropSamples idx).vVersion = s.vVersion := rfl
@[simp] theorem State.dropSamples_vLength (idx : Nat) : (s.dropSamples idx).vLength = s.vLength := rfl
@[simp] theorem State.dropSamples_vHist (idx : Nat) : (s.dropSamples idx).vHist = s.vHist := rfl
@[simp] theorem State.dropSamples_vDecPos (idx : Nat) : (s.dropSamples idx).vDecPos = s.vDecPos := rfl
@[simp] theorem State.dropSamples_vByteCursor (idx : Nat) : (s.dropSamples idx).vByteCursor = s.vByteCursor := rfl
@[simp] theorem State.dropSamples_vBitPos (idx : Nat) : (s.dropSamples idx).vBitPos = s.vBitPos := rfl
@[simp] theorem State.dropSamples_vSkipBase (idx : Nat) : (s.dropSamples idx).vSkipBase = s.vSkipBase := rfl
@[simp] theorem State.dropSamples_vSkipCount (idx : Nat) : (s.dropSamples idx).vSkipCount = s.vSkipCount := rfl
@[simp] theorem State.dropSamples_hTab (idx : Nat) : (s.dropSamples idx).hTab = s.hTab := rfl
@[simp] theorem State.dropSamples_hBuilt (idx : Nat) : (s.dropSamples idx).hBuilt = s.hBuilt := rfl
@[simp] theorem State.dropSamples_getSuspended (idx : Nat) : (s.dropSamples idx).getSuspended = s.getSuspended := rfl
@[simp] theorem State.dropSamples_held (idx : Nat) : (s.dropSamples idx).held = s.held := rfl
@[simp] theorem State.dropSamples_codecVersions (idx : Nat) : (s.dropSamples idx).codecVersions = s.codecVersions := rfl
@[simp] theorem State.dropSamples_media (idx : Nat) : (s.dropSamples idx).media = s.media := rfl
@[simp] theorem State.dropSamples_srcPhase (idx : Nat) : (s.dropSamples idx).srcPhase = s.srcPhase := rfl
@[simp] theorem State.dropSamples_inputs (idx : Nat) : (s.dropSamples idx).inputs = s.inputs := rfl
@[simp] theorem State.dropSamples_hostWord (idx : Nat) : (s.dropSamples idx).hostWord = s.hostWord := rfl
@[simp] theorem State.dropSamples_hostBytes (idx : Nat) : (s.dropSamples idx).hostBytes = s.hostBytes := rfl
@[simp] theorem State.dropSamples_freeTick (idx : Nat) : (s.dropSamples idx).freeTick = s.freeTick := rfl
@[simp] theorem State.dropSamples_bytesPerSample (idx : Nat) : (s.dropSamples idx).bytesPerSample = s.bytesPerSample := rfl
@[simp] theorem State.dropSamples_granularity (idx : Nat) : (s.dropSamples idx).granularity = s.granularity := rfl
@[simp] theorem State.dropSamples_capacity (idx : Nat) : (s.dropSamples idx).capacity = s.capacity := rfl
@[simp] theorem State.dropSamples_storageSize (idx : Nat) : (s.dropSamples idx).storageSize = s.storageSize := rfl
@[simp] theorem State.dropSamples_boundMedia (idx : Nat) : (s.dropSamples idx).boundMedia = s.boundMedia := rfl
@[simp] theorem State.dropSamples_stream (idx : Nat) : (s.dropSamples idx).stream = s.stream := rfl
@[simp] theorem State.dropSamples_header (idx : Nat) : (s.dropSamples idx).header = s.header := rfl
@[simp] theorem State.dropSamples_drained (idx : Nat) : (s.dropSamples idx).drained = s.drained := rfl
@[simp] theorem State.dropSamples_queueHasRoom (idx : Nat) : (s.dropSamples idx).queueHasRoom = s.queueHasRoom := rfl
@[simp] theorem State.dropSamples_codebookEnd (idx : Nat) : (s.dropSamples idx).codebookEnd = s.codebookEnd := rfl
@[simp] theorem State.dropSamples_hazardAt (idx : Nat) (a b : Nat) : (s.dropSamples idx).hazardAt a b = s.hazardAt a b := rfl

/-! ### State.getResult -/

@[simp] theorem State.getResult_lifeState (wpos wlen : Int) : (s.getResult wpos wlen).lifeState = s.lifeState := rfl
@[simp] theorem State.getResult_inRead (wpos wlen : Int) : (s.getResult wpos wlen).inRead = s.inRead := rfl
@[simp] theorem State.getResult_sizeBytes (wpos wlen : Int) : (s.getResult wpos wlen).sizeBytes = s.sizeBytes := rfl
@[simp] theorem State.getResult_stateReserved (wpos wlen : Int) : (s.getResult wpos wlen).stateReserved = s.stateReserved := rfl
@[simp] theorem State.getResult_wc (wpos wlen : Int) : (s.getResult wpos wlen).wc = s.wc := rfl
@[simp] theorem State.getResult_widthSet (wpos wlen : Int) : (s.getResult wpos wlen).widthSet = s.widthSet := rfl
@[simp] theorem State.getResult_sourceId (wpos wlen : Int) : (s.getResult wpos wlen).sourceId = s.sourceId := rfl
@[simp] theorem State.getResult_sourceSet (wpos wlen : Int) : (s.getResult wpos wlen).sourceSet = s.sourceSet := rfl
@[simp] theorem State.getResult_stateSize (wpos wlen : Int) : (s.getResult wpos wlen).stateSize = s.stateSize := rfl
@[simp] theorem State.getResult_writePos (wpos wlen : Int) : (s.getResult wpos wlen).writePos = s.writePos := rfl
@[simp] theorem State.getResult_writeLen (wpos wlen : Int) : (s.getResult wpos wlen).writeLen = s.writeLen := rfl
@[simp] theorem State.getResult_readCursor (wpos wlen : Int) : (s.getResult wpos wlen).readCursor = s.readCursor := rfl
@[simp] theorem State.getResult_nextExpected (wpos wlen : Int) : (s.getResult wpos wlen).nextExpected = s.nextExpected := rfl
@[simp] theorem State.getResult_arg0 (wpos wlen : Int) : (s.getResult wpos wlen).arg0 = s.arg0 := rfl
@[simp] theorem State.getResult_arg1 (wpos wlen : Int) : (s.getResult wpos wlen).arg1 = s.arg1 := rfl
@[simp] theorem State.getResult_arg2 (wpos wlen : Int) : (s.getResult wpos wlen).arg2 = s.arg2 := rfl
@[simp] theorem State.getResult_arg3 (wpos wlen : Int) : (s.getResult wpos wlen).arg3 = s.arg3 := rfl
@[simp] theorem State.getResult_res0 (wpos wlen : Int) :
    (s.getResult wpos wlen).res0 = s.fitU32 .res0 ((wpos - s.writePos.toInt) * s.bytesPerSample) := rfl
@[simp] theorem State.getResult_res1 (wpos wlen : Int) :
    (s.getResult wpos wlen).res1 = BitVec.ofInt 32 (max 0 (min wlen (s.writeLen.toInt - (wpos - s.writePos.toInt)))) := rfl
@[simp] theorem State.getResult_gWpos (wpos wlen : Int) : (s.getResult wpos wlen).gWpos = s.gWpos := rfl
@[simp] theorem State.getResult_gWlen (wpos wlen : Int) : (s.getResult wpos wlen).gWlen = s.gWlen := rfl
@[simp] theorem State.getResult_gPhase (wpos wlen : Int) : (s.getResult wpos wlen).gPhase = s.gPhase := rfl
@[simp] theorem State.getResult_rreqPos (wpos wlen : Int) : (s.getResult wpos wlen).rreqPos = s.rreqPos := rfl
@[simp] theorem State.getResult_rreqLen (wpos wlen : Int) : (s.getResult wpos wlen).rreqLen = s.rreqLen := rfl
@[simp] theorem State.getResult_rreqSeek (wpos wlen : Int) : (s.getResult wpos wlen).rreqSeek = s.rreqSeek := rfl
@[simp] theorem State.getResult_faultCause (wpos wlen : Int) : (s.getResult wpos wlen).faultCause = s.faultCause := rfl
@[simp] theorem State.getResult_faultInfo0 (wpos wlen : Int) : (s.getResult wpos wlen).faultInfo0 = s.faultInfo0 := rfl
@[simp] theorem State.getResult_faultInfo1 (wpos wlen : Int) : (s.getResult wpos wlen).faultInfo1 = s.faultInfo1 := rfl
@[simp] theorem State.getResult_faultOp (wpos wlen : Int) : (s.getResult wpos wlen).faultOp = s.faultOp := rfl
@[simp] theorem State.getResult_storage (wpos wlen : Int) : (s.getResult wpos wlen).storage = s.storage := rfl
@[simp] theorem State.getResult_queue (wpos wlen : Int) : (s.getResult wpos wlen).queue = s.queue := rfl
@[simp] theorem State.getResult_vOpen (wpos wlen : Int) : (s.getResult wpos wlen).vOpen = s.vOpen := rfl
@[simp] theorem State.getResult_vOrder (wpos wlen : Int) : (s.getResult wpos wlen).vOrder = s.vOrder := rfl
@[simp] theorem State.getResult_vPcount (wpos wlen : Int) : (s.getResult wpos wlen).vPcount = s.vPcount := rfl
@[simp] theorem State.getResult_vChannels (wpos wlen : Int) : (s.getResult wpos wlen).vChannels = s.vChannels := rfl
@[simp] theorem State.getResult_vEntropy (wpos wlen : Int) : (s.getResult wpos wlen).vEntropy = s.vEntropy := rfl
@[simp] theorem State.getResult_vVersion (wpos wlen : Int) : (s.getResult wpos wlen).vVersion = s.vVersion := rfl
@[simp] theorem State.getResult_vLength (wpos wlen : Int) : (s.getResult wpos wlen).vLength = s.vLength := rfl
@[simp] theorem State.getResult_vHist (wpos wlen : Int) : (s.getResult wpos wlen).vHist = s.vHist := rfl
@[simp] theorem State.getResult_vDecPos (wpos wlen : Int) : (s.getResult wpos wlen).vDecPos = s.vDecPos := rfl
@[simp] theorem State.getResult_vByteCursor (wpos wlen : Int) : (s.getResult wpos wlen).vByteCursor = s.vByteCursor := rfl
@[simp] theorem State.getResult_vBitPos (wpos wlen : Int) : (s.getResult wpos wlen).vBitPos = s.vBitPos := rfl
@[simp] theorem State.getResult_vSkipBase (wpos wlen : Int) : (s.getResult wpos wlen).vSkipBase = s.vSkipBase := rfl
@[simp] theorem State.getResult_vSkipCount (wpos wlen : Int) : (s.getResult wpos wlen).vSkipCount = s.vSkipCount := rfl
@[simp] theorem State.getResult_hTab (wpos wlen : Int) : (s.getResult wpos wlen).hTab = s.hTab := rfl
@[simp] theorem State.getResult_hBuilt (wpos wlen : Int) : (s.getResult wpos wlen).hBuilt = s.hBuilt := rfl
@[simp] theorem State.getResult_getSuspended (wpos wlen : Int) : (s.getResult wpos wlen).getSuspended = s.getSuspended := rfl
@[simp] theorem State.getResult_held (wpos wlen : Int) : (s.getResult wpos wlen).held = s.held := rfl
@[simp] theorem State.getResult_codecVersions (wpos wlen : Int) : (s.getResult wpos wlen).codecVersions = s.codecVersions := rfl
@[simp] theorem State.getResult_media (wpos wlen : Int) : (s.getResult wpos wlen).media = s.media := rfl
@[simp] theorem State.getResult_srcPhase (wpos wlen : Int) : (s.getResult wpos wlen).srcPhase = s.srcPhase := rfl
@[simp] theorem State.getResult_inputs (wpos wlen : Int) : (s.getResult wpos wlen).inputs = s.inputs := rfl
@[simp] theorem State.getResult_hostWord (wpos wlen : Int) : (s.getResult wpos wlen).hostWord = s.hostWord := rfl
@[simp] theorem State.getResult_hostBytes (wpos wlen : Int) : (s.getResult wpos wlen).hostBytes = s.hostBytes := rfl
@[simp] theorem State.getResult_freeTick (wpos wlen : Int) : (s.getResult wpos wlen).freeTick = s.freeTick := rfl
@[simp] theorem State.getResult_bytesPerSample (wpos wlen : Int) : (s.getResult wpos wlen).bytesPerSample = s.bytesPerSample := rfl
@[simp] theorem State.getResult_granularity (wpos wlen : Int) : (s.getResult wpos wlen).granularity = s.granularity := rfl
@[simp] theorem State.getResult_capacity (wpos wlen : Int) : (s.getResult wpos wlen).capacity = s.capacity := rfl
@[simp] theorem State.getResult_storageSize (wpos wlen : Int) : (s.getResult wpos wlen).storageSize = s.storageSize := rfl
@[simp] theorem State.getResult_boundMedia (wpos wlen : Int) : (s.getResult wpos wlen).boundMedia = s.boundMedia := rfl
@[simp] theorem State.getResult_stream (wpos wlen : Int) : (s.getResult wpos wlen).stream = s.stream := rfl
@[simp] theorem State.getResult_header (wpos wlen : Int) : (s.getResult wpos wlen).header = s.header := rfl
@[simp] theorem State.getResult_drained (wpos wlen : Int) : (s.getResult wpos wlen).drained = s.drained := rfl
@[simp] theorem State.getResult_queueHasRoom (wpos wlen : Int) : (s.getResult wpos wlen).queueHasRoom = s.queueHasRoom := rfl
@[simp] theorem State.getResult_codebookEnd (wpos wlen : Int) : (s.getResult wpos wlen).codebookEnd = s.codebookEnd := rfl
@[simp] theorem State.getResult_windowEnd (wpos wlen : Int) : (s.getResult wpos wlen).windowEnd = s.windowEnd := rfl
@[simp] theorem State.getResult_flushed (wpos wlen : Int) : (s.getResult wpos wlen).flushed = s.flushed := rfl
@[simp] theorem State.getResult_hazardAt (wpos wlen : Int) (a b : Nat) : (s.getResult wpos wlen).hazardAt a b = s.hazardAt a b := rfl

/-! ### State.advanceStaged -/

@[simp] theorem State.advanceStaged_lifeState (frames nb : Nat) : (s.advanceStaged frames nb).lifeState = s.lifeState := rfl
@[simp] theorem State.advanceStaged_inRead (frames nb : Nat) : (s.advanceStaged frames nb).inRead = s.inRead := rfl
@[simp] theorem State.advanceStaged_sizeBytes (frames nb : Nat) : (s.advanceStaged frames nb).sizeBytes = s.sizeBytes := rfl
@[simp] theorem State.advanceStaged_stateReserved (frames nb : Nat) : (s.advanceStaged frames nb).stateReserved = s.stateReserved := rfl
@[simp] theorem State.advanceStaged_wc (frames nb : Nat) : (s.advanceStaged frames nb).wc = s.wc := rfl
@[simp] theorem State.advanceStaged_widthSet (frames nb : Nat) : (s.advanceStaged frames nb).widthSet = s.widthSet := rfl
@[simp] theorem State.advanceStaged_sourceId (frames nb : Nat) : (s.advanceStaged frames nb).sourceId = s.sourceId := rfl
@[simp] theorem State.advanceStaged_sourceSet (frames nb : Nat) : (s.advanceStaged frames nb).sourceSet = s.sourceSet := rfl
@[simp] theorem State.advanceStaged_stateSize (frames nb : Nat) : (s.advanceStaged frames nb).stateSize = s.stateSize := rfl
@[simp] theorem State.advanceStaged_writePos (frames nb : Nat) : (s.advanceStaged frames nb).writePos = s.writePos := rfl
@[simp] theorem State.advanceStaged_writeLen (frames nb : Nat) : (s.advanceStaged frames nb).writeLen = s.writeLen := rfl
@[simp] theorem State.advanceStaged_readCursor (frames nb : Nat) : (s.advanceStaged frames nb).readCursor = s.readCursor := rfl
@[simp] theorem State.advanceStaged_nextExpected (frames nb : Nat) : (s.advanceStaged frames nb).nextExpected = s.nextExpected := rfl
@[simp] theorem State.advanceStaged_arg0 (frames nb : Nat) : (s.advanceStaged frames nb).arg0 = s.arg0 := rfl
@[simp] theorem State.advanceStaged_arg1 (frames nb : Nat) : (s.advanceStaged frames nb).arg1 = s.arg1 := rfl
@[simp] theorem State.advanceStaged_arg2 (frames nb : Nat) : (s.advanceStaged frames nb).arg2 = s.arg2 := rfl
@[simp] theorem State.advanceStaged_arg3 (frames nb : Nat) : (s.advanceStaged frames nb).arg3 = s.arg3 := rfl
@[simp] theorem State.advanceStaged_res0 (frames nb : Nat) : (s.advanceStaged frames nb).res0 = s.res0 := rfl
@[simp] theorem State.advanceStaged_res1 (frames nb : Nat) : (s.advanceStaged frames nb).res1 = s.res1 := rfl
@[simp] theorem State.advanceStaged_gWpos (frames nb : Nat) : (s.advanceStaged frames nb).gWpos = s.gWpos := rfl
@[simp] theorem State.advanceStaged_gWlen (frames nb : Nat) : (s.advanceStaged frames nb).gWlen = s.gWlen := rfl
@[simp] theorem State.advanceStaged_gPhase (frames nb : Nat) : (s.advanceStaged frames nb).gPhase = s.gPhase := rfl
@[simp] theorem State.advanceStaged_rreqPos (frames nb : Nat) : (s.advanceStaged frames nb).rreqPos = s.rreqPos := rfl
@[simp] theorem State.advanceStaged_rreqLen (frames nb : Nat) : (s.advanceStaged frames nb).rreqLen = s.rreqLen := rfl
@[simp] theorem State.advanceStaged_rreqSeek (frames nb : Nat) : (s.advanceStaged frames nb).rreqSeek = s.rreqSeek := rfl
@[simp] theorem State.advanceStaged_faultCause (frames nb : Nat) : (s.advanceStaged frames nb).faultCause = s.faultCause := rfl
@[simp] theorem State.advanceStaged_faultInfo0 (frames nb : Nat) : (s.advanceStaged frames nb).faultInfo0 = s.faultInfo0 := rfl
@[simp] theorem State.advanceStaged_faultInfo1 (frames nb : Nat) : (s.advanceStaged frames nb).faultInfo1 = s.faultInfo1 := rfl
@[simp] theorem State.advanceStaged_faultOp (frames nb : Nat) : (s.advanceStaged frames nb).faultOp = s.faultOp := rfl
@[simp] theorem State.advanceStaged_storage (frames nb : Nat) : (s.advanceStaged frames nb).storage = s.storage := rfl
@[simp] theorem State.advanceStaged_queue (frames nb : Nat) : (s.advanceStaged frames nb).queue = s.queue := rfl
@[simp] theorem State.advanceStaged_vOpen (frames nb : Nat) : (s.advanceStaged frames nb).vOpen = s.vOpen := rfl
@[simp] theorem State.advanceStaged_vOrder (frames nb : Nat) : (s.advanceStaged frames nb).vOrder = s.vOrder := rfl
@[simp] theorem State.advanceStaged_vPcount (frames nb : Nat) : (s.advanceStaged frames nb).vPcount = s.vPcount := rfl
@[simp] theorem State.advanceStaged_vChannels (frames nb : Nat) : (s.advanceStaged frames nb).vChannels = s.vChannels := rfl
@[simp] theorem State.advanceStaged_vEntropy (frames nb : Nat) : (s.advanceStaged frames nb).vEntropy = s.vEntropy := rfl
@[simp] theorem State.advanceStaged_vVersion (frames nb : Nat) : (s.advanceStaged frames nb).vVersion = s.vVersion := rfl
@[simp] theorem State.advanceStaged_vLength (frames nb : Nat) : (s.advanceStaged frames nb).vLength = s.vLength := rfl
@[simp] theorem State.advanceStaged_vHist (frames nb : Nat) : (s.advanceStaged frames nb).vHist = s.vHist := rfl
@[simp] theorem State.advanceStaged_vDecPos (frames nb : Nat) :
    (s.advanceStaged frames nb).vDecPos = BitVec.ofInt 32 (s.vDecPos.toInt + 16 * frames) := rfl
@[simp] theorem State.advanceStaged_vByteCursor (frames nb : Nat) :
    (s.advanceStaged frames nb).vByteCursor = s.fitU32 .byteCursor (s.vByteCursor.toNat + nb) := rfl
@[simp] theorem State.advanceStaged_vBitPos (frames nb : Nat) : (s.advanceStaged frames nb).vBitPos = s.vBitPos := rfl
@[simp] theorem State.advanceStaged_vSkipBase (frames nb : Nat) : (s.advanceStaged frames nb).vSkipBase = s.vSkipBase := rfl
@[simp] theorem State.advanceStaged_vSkipCount (frames nb : Nat) : (s.advanceStaged frames nb).vSkipCount = s.vSkipCount := rfl
@[simp] theorem State.advanceStaged_hTab (frames nb : Nat) : (s.advanceStaged frames nb).hTab = s.hTab := rfl
@[simp] theorem State.advanceStaged_hBuilt (frames nb : Nat) : (s.advanceStaged frames nb).hBuilt = s.hBuilt := rfl
@[simp] theorem State.advanceStaged_getSuspended (frames nb : Nat) : (s.advanceStaged frames nb).getSuspended = s.getSuspended := rfl
@[simp] theorem State.advanceStaged_held (frames nb : Nat) : (s.advanceStaged frames nb).held = s.held := rfl
@[simp] theorem State.advanceStaged_codecVersions (frames nb : Nat) : (s.advanceStaged frames nb).codecVersions = s.codecVersions := rfl
@[simp] theorem State.advanceStaged_media (frames nb : Nat) : (s.advanceStaged frames nb).media = s.media := rfl
@[simp] theorem State.advanceStaged_srcPhase (frames nb : Nat) : (s.advanceStaged frames nb).srcPhase = s.srcPhase := rfl
@[simp] theorem State.advanceStaged_inputs (frames nb : Nat) : (s.advanceStaged frames nb).inputs = s.inputs := rfl
@[simp] theorem State.advanceStaged_hostWord (frames nb : Nat) : (s.advanceStaged frames nb).hostWord = s.hostWord := rfl
@[simp] theorem State.advanceStaged_hostBytes (frames nb : Nat) : (s.advanceStaged frames nb).hostBytes = s.hostBytes := rfl
@[simp] theorem State.advanceStaged_freeTick (frames nb : Nat) : (s.advanceStaged frames nb).freeTick = s.freeTick := rfl
@[simp] theorem State.advanceStaged_bytesPerSample (frames nb : Nat) : (s.advanceStaged frames nb).bytesPerSample = s.bytesPerSample := rfl
@[simp] theorem State.advanceStaged_granularity (frames nb : Nat) : (s.advanceStaged frames nb).granularity = s.granularity := rfl
@[simp] theorem State.advanceStaged_capacity (frames nb : Nat) : (s.advanceStaged frames nb).capacity = s.capacity := rfl
@[simp] theorem State.advanceStaged_storageSize (frames nb : Nat) : (s.advanceStaged frames nb).storageSize = s.storageSize := rfl
@[simp] theorem State.advanceStaged_boundMedia (frames nb : Nat) : (s.advanceStaged frames nb).boundMedia = s.boundMedia := rfl
@[simp] theorem State.advanceStaged_stream (frames nb : Nat) : (s.advanceStaged frames nb).stream = s.stream := rfl
@[simp] theorem State.advanceStaged_header (frames nb : Nat) : (s.advanceStaged frames nb).header = s.header := rfl
@[simp] theorem State.advanceStaged_drained (frames nb : Nat) : (s.advanceStaged frames nb).drained = s.drained := rfl
@[simp] theorem State.advanceStaged_queueHasRoom (frames nb : Nat) : (s.advanceStaged frames nb).queueHasRoom = s.queueHasRoom := rfl
@[simp] theorem State.advanceStaged_codebookEnd (frames nb : Nat) : (s.advanceStaged frames nb).codebookEnd = s.codebookEnd := rfl
@[simp] theorem State.advanceStaged_windowEnd (frames nb : Nat) : (s.advanceStaged frames nb).windowEnd = s.windowEnd := rfl
@[simp] theorem State.advanceStaged_flushed (frames nb : Nat) : (s.advanceStaged frames nb).flushed = s.flushed := rfl
@[simp] theorem State.advanceStaged_hazardAt (frames nb : Nat) (a b : Nat) : (s.advanceStaged frames nb).hazardAt a b = s.hazardAt a b := rfl

/-! ### State.powerOn -/

@[simp] theorem State.powerOn_lifeState : s.powerOn.lifeState = State.reset.lifeState := rfl
@[simp] theorem State.powerOn_inRead : s.powerOn.inRead = State.reset.inRead := rfl
@[simp] theorem State.powerOn_sizeBytes : s.powerOn.sizeBytes = State.reset.sizeBytes := rfl
@[simp] theorem State.powerOn_stateReserved : s.powerOn.stateReserved = State.reset.stateReserved := rfl
@[simp] theorem State.powerOn_wc : s.powerOn.wc = State.reset.wc := rfl
@[simp] theorem State.powerOn_widthSet : s.powerOn.widthSet = State.reset.widthSet := rfl
@[simp] theorem State.powerOn_sourceId : s.powerOn.sourceId = State.reset.sourceId := rfl
@[simp] theorem State.powerOn_sourceSet : s.powerOn.sourceSet = State.reset.sourceSet := rfl
@[simp] theorem State.powerOn_stateSize : s.powerOn.stateSize = State.reset.stateSize := rfl
@[simp] theorem State.powerOn_writePos : s.powerOn.writePos = State.reset.writePos := rfl
@[simp] theorem State.powerOn_writeLen : s.powerOn.writeLen = State.reset.writeLen := rfl
@[simp] theorem State.powerOn_readCursor : s.powerOn.readCursor = State.reset.readCursor := rfl
@[simp] theorem State.powerOn_nextExpected : s.powerOn.nextExpected = State.reset.nextExpected := rfl
@[simp] theorem State.powerOn_arg0 : s.powerOn.arg0 = State.reset.arg0 := rfl
@[simp] theorem State.powerOn_arg1 : s.powerOn.arg1 = State.reset.arg1 := rfl
@[simp] theorem State.powerOn_arg2 : s.powerOn.arg2 = State.reset.arg2 := rfl
@[simp] theorem State.powerOn_arg3 : s.powerOn.arg3 = State.reset.arg3 := rfl
@[simp] theorem State.powerOn_res0 : s.powerOn.res0 = State.reset.res0 := rfl
@[simp] theorem State.powerOn_res1 : s.powerOn.res1 = State.reset.res1 := rfl
@[simp] theorem State.powerOn_gWpos : s.powerOn.gWpos = State.reset.gWpos := rfl
@[simp] theorem State.powerOn_gWlen : s.powerOn.gWlen = State.reset.gWlen := rfl
@[simp] theorem State.powerOn_gPhase : s.powerOn.gPhase = State.reset.gPhase := rfl
@[simp] theorem State.powerOn_rreqPos : s.powerOn.rreqPos = State.reset.rreqPos := rfl
@[simp] theorem State.powerOn_rreqLen : s.powerOn.rreqLen = State.reset.rreqLen := rfl
@[simp] theorem State.powerOn_rreqSeek : s.powerOn.rreqSeek = State.reset.rreqSeek := rfl
@[simp] theorem State.powerOn_faultCause : s.powerOn.faultCause = State.reset.faultCause := rfl
@[simp] theorem State.powerOn_faultInfo0 : s.powerOn.faultInfo0 = State.reset.faultInfo0 := rfl
@[simp] theorem State.powerOn_faultInfo1 : s.powerOn.faultInfo1 = State.reset.faultInfo1 := rfl
@[simp] theorem State.powerOn_faultOp : s.powerOn.faultOp = State.reset.faultOp := rfl
@[simp] theorem State.powerOn_storage : s.powerOn.storage = State.reset.storage := rfl
@[simp] theorem State.powerOn_queue : s.powerOn.queue = State.reset.queue := rfl
@[simp] theorem State.powerOn_vOpen : s.powerOn.vOpen = State.reset.vOpen := rfl
@[simp] theorem State.powerOn_vOrder : s.powerOn.vOrder = State.reset.vOrder := rfl
@[simp] theorem State.powerOn_vPcount : s.powerOn.vPcount = State.reset.vPcount := rfl
@[simp] theorem State.powerOn_vChannels : s.powerOn.vChannels = State.reset.vChannels := rfl
@[simp] theorem State.powerOn_vEntropy : s.powerOn.vEntropy = State.reset.vEntropy := rfl
@[simp] theorem State.powerOn_vVersion : s.powerOn.vVersion = State.reset.vVersion := rfl
@[simp] theorem State.powerOn_vLength : s.powerOn.vLength = State.reset.vLength := rfl
@[simp] theorem State.powerOn_vHist : s.powerOn.vHist = State.reset.vHist := rfl
@[simp] theorem State.powerOn_vDecPos : s.powerOn.vDecPos = State.reset.vDecPos := rfl
@[simp] theorem State.powerOn_vByteCursor : s.powerOn.vByteCursor = State.reset.vByteCursor := rfl
@[simp] theorem State.powerOn_vBitPos : s.powerOn.vBitPos = State.reset.vBitPos := rfl
@[simp] theorem State.powerOn_vSkipBase : s.powerOn.vSkipBase = State.reset.vSkipBase := rfl
@[simp] theorem State.powerOn_vSkipCount : s.powerOn.vSkipCount = State.reset.vSkipCount := rfl
@[simp] theorem State.powerOn_hTab : s.powerOn.hTab = State.reset.hTab := rfl
@[simp] theorem State.powerOn_hBuilt : s.powerOn.hBuilt = State.reset.hBuilt := rfl
@[simp] theorem State.powerOn_getSuspended : s.powerOn.getSuspended = State.reset.getSuspended := rfl
@[simp] theorem State.powerOn_held : s.powerOn.held = State.reset.held := rfl
@[simp] theorem State.powerOn_codecVersions : s.powerOn.codecVersions = s.codecVersions := rfl
@[simp] theorem State.powerOn_media : s.powerOn.media = s.media := rfl
@[simp] theorem State.powerOn_srcPhase : s.powerOn.srcPhase = State.reset.srcPhase := rfl
@[simp] theorem State.powerOn_inputs : s.powerOn.inputs = s.inputs := rfl
@[simp] theorem State.powerOn_hostWord : s.powerOn.hostWord = s.hostWord := rfl
@[simp] theorem State.powerOn_hostBytes : s.powerOn.hostBytes = s.hostBytes := rfl
@[simp] theorem State.powerOn_freeTick : s.powerOn.freeTick = s.freeTick := rfl

end Sys2Proof.Machine
end

