-- ==== Sys2Proof/Laws/Ops.lean ====
section
/-! SUPPORT. What each shared operation can do, said once: narrowing, the common checks, holds, the hazard check, the
checked store and the window's operations. -/

namespace Sys2Proof.Machine

/-! ### Narrowing -/

theorem State.fitS32_toInt (s : State) (site : FreeSite) {v : Int} (lo : -2147483648 ≤ v) (hi : v ≤ 2147483647) :
    (s.fitS32 site v).toInt = v := by
  rw [State.fitS32, if_pos ⟨lo, hi⟩, BitVec.toInt_ofInt]
  exact Int.bmod_eq_of_le (by omega) (by omega)

theorem State.fitU32_toNat (s : State) (site : FreeSite) {v : Nat} (hi : v < 2 ^ 32) :
    (s.fitU32 site v).toNat = v := by
  rw [State.fitU32, if_pos ⟨by omega, by omega⟩, BitVec.toNat_ofInt]
  omega

theorem ofInt_toInt {v : Int} (lo : -2147483648 ≤ v) (hi : v ≤ 2147483647) : (BitVec.ofInt 32 v).toInt = v := by
  rw [BitVec.toInt_ofInt]
  exact Int.bmod_eq_of_le (by omega) (by omega)

theorem ofNat_toInt {n : Nat} (hi : n ≤ 2147483647) : (BitVec.ofNat 32 n).toInt = n := by
  rw [← BitVec.ofInt_natCast]
  exact ofInt_toInt (by omega) (by omega)

theorem toInt_bounds (w : Word) : -2147483648 ≤ w.toInt ∧ w.toInt ≤ 2147483647 := by
  have h1 := BitVec.le_toInt w
  have h2 := BitVec.toInt_lt (x := w)
  constructor <;> omega

/-! ### How a command ends -/

@[simp] theorem Exit.close_done (op : BitVec 8) (s : State) : (Exit.done s).close op = .next s := rfl
@[simp] theorem Exit.close_trap (op : BitVec 8) (s : State) (t : Trap) :
    (Exit.trap s t).close op = .next (s.raise op t) := rfl
@[simp] theorem Exit.andThen_done (s : State) (k : State → Exit) : (Exit.done s).andThen k = k s := rfl
@[simp] theorem Exit.andThen_trap (s : State) (t : Trap) (k : State → Exit) :
    (Exit.trap s t).andThen k = .trap s t := rfl

/-- A command that answers a next state completed there, or faulted in some state. -/
theorem Exit.close_eq_next {e : Exit} {op : BitVec 8} {t : State} (h : e.close op = .next t) :
    e = .done t ∨ ∃ u x, e = .trap u x ∧ t = u.raise op x := by
  cases e with
  | done s => exact .inl (by simpa using h)
  | trap u x => exact .inr ⟨u, x, rfl, by simpa using h.symm⟩

theorem Exit.close_ne_refused (e : Exit) (op : BitVec 8) (r : Refusal) : e.close op ≠ .refused r := by
  cases e <;> simp

/-- Every command answers a next state. -/
theorem Exit.close_next (e : Exit) (op : BitVec 8) : ∃ t, e.close op = .next t := by
  cases e with
  | done s => exact ⟨_, rfl⟩
  | trap u x => exact ⟨_, rfl⟩

theorem Exit.andThen_eq_done {e : Exit} {k : State → Exit} {t : State} (h : e.andThen k = .done t) :
    ∃ u, e = .done u ∧ k u = .done t := by
  cases e with
  | done u => exact ⟨u, rfl, h⟩
  | trap u x => cases h

theorem Exit.andThen_eq_trap {e : Exit} {k : State → Exit} {t : State} {x : Trap} (h : e.andThen k = .trap t x) :
    e = .trap t x ∨ ∃ u, e = .done u ∧ k u = .trap t x := by
  cases e with
  | done u => exact .inr ⟨u, rfl, h⟩
  | trap u y => exact .inl h

/-! ### The common checks -/

/-- Whether the class check lets a command pass (30_encoding.md R125). -/
def classAllows (i : Instr) (inRead : Bool) : Bool :=
  match commandClass i with
  | .host => !inRead
  | .source => inRead
  | .any => true

/-- A command that passes the common checks does its own part. -/
theorem issue_passes {i : Instr} (body : State → Exit) {s : State} (hl : s.lifeState = .ready)
    (hc : classAllows i s.inRead = true) : issue i body s = (body s).close (opcode i) := by
  have h1 : ¬ s.lifeState = .faulted := by rw [hl]; decide
  have h2 : ¬ (s.lifeState = .uninit ∧ i ≠ .init) := by rw [hl]; rintro ⟨h, -⟩; cases h
  rw [issue, if_neg h1, if_neg h2]
  unfold classAllows at hc
  split
  · rename_i a b; rw [a, b] at hc; cases hc
  · rename_i a b; rw [a, b] at hc; cases hc
  · rfl

/-- INIT is the one command that passes the common checks in UNINIT. -/
theorem issue_init_passes (body : State → Exit) {s : State} (hl : s.lifeState = .uninit)
    (hr : s.inRead = false) : issue .init body s = (body s).close (opcode .init) := by
  rw [issue, if_neg (by rw [hl]; decide), if_neg (by rintro ⟨-, h⟩; exact h rfl), hr]
  rfl

/-- While FAULTED a command has no effect. -/
theorem issue_faulted (i : Instr) (body : State → Exit) {s : State} (hl : s.lifeState = .faulted) :
    issue i body s = .next s := by
  rw [issue, if_pos hl]

/-- Everything a command can answer: no effect while FAULTED, a common fault, or what its own part answers. -/
theorem issue_cases (i : Instr) (body : State → Exit) (s : State) :
    (s.lifeState = .faulted ∧ issue i body s = .next s)
    ∨ (s.lifeState ≠ .faulted ∧ ∃ x : Trap, issue i body s = .next (s.raise (opcode i) x))
    ∨ (s.lifeState ≠ .faulted ∧ (s.lifeState = .uninit → i = .init) ∧ classAllows i s.inRead = true
        ∧ issue i body s = (body s).close (opcode i)) := by
  by_cases h1 : s.lifeState = .faulted
  · exact .inl ⟨h1, issue_faulted i body h1⟩
  by_cases h2 : s.lifeState = .uninit ∧ i ≠ .init
  · exact .inr (.inl ⟨h1, _, by rw [issue, if_neg h1, if_pos h2]⟩)
  have h3 : s.lifeState = .uninit → i = .init := fun h => by
    by_contra hne
    exact h2 ⟨h, hne⟩
  rw [issue, if_neg h1, if_neg h2]
  unfold classAllows
  cases commandClass i <;> cases s.inRead
  · exact .inr (.inr ⟨h1, h3, rfl, rfl⟩)
  · exact .inr (.inl ⟨h1, _, rfl⟩)
  · exact .inr (.inl ⟨h1, _, rfl⟩)
  · exact .inr (.inr ⟨h1, h3, rfl, rfl⟩)
  · exact .inr (.inr ⟨h1, h3, rfl, rfl⟩)
  · exact .inr (.inr ⟨h1, h3, rfl, rfl⟩)

/-- Every command word answers a next state: its faults are the block's own. -/
theorem issue_next (i : Instr) (body : State → Exit) (s : State) : ∃ t, issue i body s = .next t := by
  rcases issue_cases i body s with ⟨-, h⟩ | ⟨-, x, h⟩ | ⟨-, -, -, h⟩
  · exact ⟨_, h⟩
  · exact ⟨_, h⟩
  · rw [h]
    exact Exit.close_next _ _

/-! ### Holds -/

theorem State.holdUntil_true (s : State) (h : Held) (rest : State → Exit) : s.holdUntil true h rest = rest s := rfl
theorem State.holdUntil_false (s : State) (h : Held) (rest : State → Exit) :
    s.holdUntil false h rest = .done { s with held := some h } := rfl

/-- A hold lets the command go on, or leaves it held with nothing else changed. -/
theorem State.holdUntil_cases (s : State) (ready : Bool) (h : Held) (rest : State → Exit) :
    (ready = true ∧ s.holdUntil ready h rest = rest s)
    ∨ (ready = false ∧ s.holdUntil ready h rest = .done { s with held := some h }) := by
  cases ready
  · exact .inr ⟨rfl, rfl⟩
  · exact .inl ⟨rfl, rfl⟩

theorem State.drained_iff (s : State) : s.drained = true ↔ s.queue = [] := by
  rw [State.drained, List.isEmpty_iff]

/-! ### Checked accesses -/

/-- With no job pending no access is a hazard. -/
theorem State.hazardAt_of_drained {s : State} (h : s.queue = []) (lo hi : Nat) : s.hazardAt lo hi = none := by
  rw [State.hazardAt, h]
  rfl

/-- An access is no hazard exactly when no pending job's range overlaps it (20_memory.md R104). -/
theorem State.hazardAt_eq_none (s : State) (lo hi : Nat) :
    s.hazardAt lo hi = none ↔ ∀ j ∈ s.queue, rangesOverlap j.lo j.hi lo hi = false := by
  rw [State.hazardAt, Option.map_eq_none_iff, List.find?_eq_none]
  simp

/-- A store inside STORAGE writes the bytes; one beyond it faults and writes nothing (20_memory.md R81). -/
theorem State.storeBytes_cases (s : State) (off : Nat) (bs : List Byte) :
    ((bs = [] ∨ off + bs.length ≤ s.storageSize)
      ∧ s.storeBytes off bs = .done { s with storage := Memory.writeBytes s.storage off bs })
    ∨ (s.storageSize < off + bs.length ∧ s.storeBytes off bs = .trap s ⟨.badArg, off, s.storageSize⟩) := by
  unfold State.storeBytes
  split
  · rename_i h
    exact .inr ⟨h.2, rfl⟩
  · rename_i h
    refine .inl ⟨?_, rfl⟩
    by_cases hb : bs = []
    · exact .inl hb
    · exact .inr (by by_contra hlt; exact h ⟨hb, by omega⟩)

/-! ### The window -/

theorem State.bytesPerSample_pos (s : State) : 0 < s.bytesPerSample := Nat.two_pow_pos _

theorem State.flushed_iff (s : State) :
    s.flushed = true ↔ s.writePos = 0 ∧ s.writeLen = 0 ∧ s.readCursor = 0 ∧ s.nextExpected = 0xFFFFFFFF := by
  simp [State.flushed, and_assoc]

@[simp] theorem State.flushCursors_is_flushed (s : State) : s.flushCursors.flushed = true := rfl

theorem roundDown_le (n : Int) {g : Int} (hg : 0 < g) : roundDown n g ≤ n := by
  have := Int.emod_nonneg n (by omega : g ≠ 0)
  unfold roundDown
  omega

theorem roundDown_nonneg {n g : Int} (hn : 0 ≤ n) (hg : 0 < g) : 0 ≤ roundDown n g := by
  have h1 := Int.emod_add_mul_ediv n g
  have h2 : 0 ≤ g * (n / g) := Int.mul_nonneg hg.le (Int.ediv_nonneg hn hg.le)
  unfold roundDown
  omega

theorem le_roundUp (n : Int) {g : Int} (hg : 0 < g) : n ≤ roundUp n g := by
  have h1 := Int.emod_add_mul_ediv (n + g - 1) g
  have h2 := Int.emod_lt_of_pos (n + g - 1) hg
  unfold roundUp
  rw [Int.mul_comm]
  omega

/-- The samples dropped are at most the distance to the position and at most the window. -/
theorem State.discardCount_le (s : State) (p : Int) (h : s.discardCount p ≠ 0) :
    (s.discardCount p : Int) ≤ p - s.writePos.toInt ∧ (s.discardCount p : Int) ≤ s.writeLen.toInt := by
  have hr := roundDown_le (min (p - s.writePos.toInt) s.writeLen.toInt) (g := 2) (by decide)
  unfold State.discardCount at h ⊢
  split at h
  · exact absurd rfl h
  · rename_i hp
    rw [if_neg hp]
    split at h <;> rename_i hb
    · rw [if_pos hb]
      constructor <;> omega
    · rw [if_neg hb]
      constructor <;> omega

/-- discard_window drops nothing and goes on, is held with nothing changed, or drops samples and goes on. -/
theorem State.discardWindow_cases (s : State) (p : Int) (h : Held) (rest : State → Exit) :
    (s.discardCount p = 0 ∧ s.discardWindow p h rest = rest s)
    ∨ (s.discardCount p ≠ 0 ∧ s.queue ≠ [] ∧ s.discardWindow p h rest = .done { s with held := some h })
    ∨ (s.discardCount p ≠ 0 ∧ s.queue = []
        ∧ s.discardWindow p h rest = rest (s.dropSamples (s.discardCount p))) := by
  unfold State.discardWindow
  split
  · rename_i hz
    exact .inl ⟨hz, rfl⟩
  · rename_i hz
    rcases s.holdUntil_cases s.drained h (fun s => rest (s.dropSamples (s.discardCount p))) with ⟨hd, he⟩ | ⟨hd, he⟩
    · exact .inr (.inr ⟨hz, s.drained_iff.mp hd, he⟩)
    · exact .inr (.inl ⟨hz, (fun hq => by simp [s.drained_iff.mpr hq] at hd), he⟩)

/-! ### Lookups, the history and the prediction -/

/-- A lookup in a table that holds a value reads it (42_huffman.md R290). -/
theorem State.tableEntry_of_value {s : State} {k x : Nat} {tab : List Byte} {b : Byte}
    (h : s.hTab.context k = some tab) (hx : tab[x]? = some b) : s.tableEntry k x = b := by
  simp [State.tableEntry, h, hx]

/-- A retirement reads V_HIST where it holds a value (10_state.md R57). -/
@[simp] theorem State.history_of_value {s : State} {hist : List (List Half)} (h : s.vHist = some hist) :
    s.history = hist := by
  simp [State.history, h]

/-- With a zero codebook the accumulator's first part is 0 (41_vadpcm.md R256 item 3). -/
theorem dotPart_zero_codebook (P : Predictor) {coef : List (List Int)} (h : ∀ row ∈ coef, ∀ v ∈ row, v = 0)
    (order : Nat) (past es : List Int) : dotPart P coef order past es = 0 := by
  rw [dotPart, if_pos]
  simpa using Or.inl h

/-- With no sample but 0 the accumulator's first part is 0 (41_vadpcm.md R256 item 3). -/
theorem dotPart_zero_samples (P : Predictor) (coef : List (List Int)) (order : Nat) {past : List Int}
    (h : ∀ x ∈ past, x = 0) (es : List Int) : dotPart P coef order past es = 0 := by
  rw [dotPart, if_pos]
  simpa using Or.inr h

/-- Where the accumulator's first part is 0, the output is the clamped residual. -/
theorem predictSample_of_zero_part {P : Predictor} {coef : List (List Int)} {order : Nat} {past earlier : List Int}
    {e : Int} (h : dotPart P coef order past (e :: earlier) = 0) :
    predictSample P coef order past earlier e = clamp16 e := by
  rw [predictSample, h, Int.zero_add, Int.mul_ediv_cancel _ (by positivity)]

/-! ### The offload engine -/

/-- The offload engine's step always answers a next state. -/
theorem engineStepWith_next (P : Predictor) (s : State) : ∃ t, engineStepWith P s = .next t := by
  unfold engineStepWith
  split
  · exact ⟨_, rfl⟩
  · split
    · exact ⟨_, rfl⟩
    · exact Exit.close_next _ _

end Sys2Proof.Machine
end

