-- ==== Sys2Proof/Laws/PerInstr.lean ====
section
/-! SUPPORT. The family Encoding: what holds of every command as syntax (30_encoding.md R122, R123). -/

namespace Sys2Proof.Laws.Encoding

/-- The encoding of a command is a well-formed command word, and it decodes to that command. -/
def Statement (i : Instr) : Prop :=
  (Command.ofWord (encode i)).wellFormed = true ∧ decode (encode i) = .ok i

theorem init : Statement .init := by unfold Statement; decide
theorem close : Statement .close := by unfold Statement; decide
theorem setWidth : Statement .setWidth := by unfold Statement; decide
theorem setSource : Statement .setSource := by unfold Statement; decide
theorem get : Statement .get := by unfold Statement; decide
theorem discard : Statement .discard := by unfold Statement; decide
theorem flush : Statement .flush := by unfold Statement; decide
theorem drain : Statement .drain := by unfold Statement; decide
theorem append : Statement .append := by unfold Statement; decide
theorem undo : Statement .undo := by unfold Statement; decide
theorem readDone : Statement .readDone := by unfold Statement; decide
theorem scopy : Statement .scopy := by unfold Statement; decide
theorem vopen : Statement .vopen := by unfold Statement; decide
theorem vseek : Statement .vseek := by unfold Statement; decide
theorem vstage : Statement .vstage := by unfold Statement; decide
theorem vjob : Statement .vjob := by unfold Statement; decide
theorem hbuild : Statement .hbuild := by unfold Statement; decide
theorem hdecode : Statement .hdecode := by unfold Statement; decide

end Sys2Proof.Laws.Encoding
end

