-- ==== Sys2Proof/Laws/Step.lean ====
section
/-! SUPPORT. What a step is for each kind of next move, and that a meaning is the common checks around a command's own
part. -/

namespace Sys2Proof.Machine

/-- A command's own part, without the common checks. -/
def bodyOf : Instr → State → Exit
  | .init => initBody
  | .close => closeBody
  | .setWidth => setWidthBody
  | .setSource => setSourceBody
  | .get => getBody
  | .discard => discardBody
  | .flush => flushBody
  | .drain => drainBody
  | .append => appendBody
  | .undo => undoBody
  | .readDone => readDoneBody
  | .scopy => scopyBody
  | .vopen => vopenBody
  | .vseek => vseekBody
  | .vstage => vstageBody
  | .vjob => vjobBody
  | .hbuild => hbuildBody
  | .hdecode => hdecodeBody

/-- Every meaning is the common checks around the command's own part (60_exceptions.md R345). -/
theorem exec_eq_issue (i : Instr) (s : State) : exec i s = issue i (bodyOf i) s := by
  cases i <;> rfl

/-- Every command answers a next state. -/
theorem exec_next (i : Instr) (s : State) : ∃ t, exec i s = .next t := by
  rw [exec_eq_issue]
  exact issue_next i _ s

/-- While FAULTED a command has no effect (60_exceptions.md R352). -/
theorem exec_faulted (i : Instr) {s : State} (h : s.lifeState = .faulted) : exec i s = .next s := by
  rw [exec_eq_issue, issue_faulted i _ h]

/-- A class H command outside a read, in READY, does its own part. -/
theorem exec_host {i : Instr} {s : State} (hi : commandClass i = .host) (hl : s.lifeState = .ready)
    (hr : s.inRead = false) : exec i s = (bodyOf i s).close (opcode i) := by
  rw [exec_eq_issue, issue_passes _ hl (by rw [classAllows, hi, hr]; rfl)]

/-- A class S command in a read, in READY, does its own part. -/
theorem exec_source {i : Instr} {s : State} (hi : commandClass i = .source) (hl : s.lifeState = .ready)
    (hr : s.inRead = true) : exec i s = (bodyOf i s).close (opcode i) := by
  rw [exec_eq_issue, issue_passes _ hl (by rw [classAllows, hi, hr])]

/-- DRAIN in READY does its own part. -/
theorem exec_drain {s : State} (hl : s.lifeState = .ready) : exec .drain s = (drainBody s).close 0x08 := by
  rw [exec_eq_issue, issue_passes _ hl rfl]
  rfl

/-! ### The step, by its next move -/

/-- A command word that need not wait is issued. -/
theorem step_command {s : State} {w : Word} {rest : List Move} (h : s.inputs = issueMove w :: rest)
    (hw : s.writeWaits 0 = false) : step s = issueWord w { s with inputs := rest, freeTick := s.freeTick + 1 } := by
  have hw' : State.writeWaits { s with freeTick := s.freeTick + 1 } 0 = false := hw
  unfold step stepMoves
  simp only [h, issueMove]
  rw [if_neg]
  · rfl
  · have : State.writeWaits { s with freeTick := s.freeTick + 1 } 0
        = State.writeWaits { s with inputs := .regWrite 0 32 w :: rest, freeTick := s.freeTick + 1 } 0 := rfl
    rw [← this, hw']
    decide

/-- A REG write that need not wait is made. -/
theorem step_regWrite {s : State} {o : BitVec 8} {n : Nat} {v : Word} {rest : List Move}
    (h : s.inputs = .regWrite o n v :: rest) (hw : s.writeWaits o = false) :
    step s = regWrite o n v { s with inputs := rest, freeTick := s.freeTick + 1 } := by
  have hw' : State.writeWaits { s with freeTick := s.freeTick + 1 } o = false := hw
  unfold step stepMoves
  simp only [h]
  rw [if_neg]
  have : State.writeWaits { s with freeTick := s.freeTick + 1 } o
      = State.writeWaits { s with inputs := .regWrite o n v :: rest, freeTick := s.freeTick + 1 } o := rfl
  rw [← this, hw']
  decide

/-- A REG write that must wait lets the control path go on. -/
theorem step_waits {s : State} {o : BitVec 8} {n : Nat} {v : Word} {rest : List Move}
    (h : s.inputs = .regWrite o n v :: rest) (hw : s.writeWaits o = true) :
    step s = controlStep engineStep { s with freeTick := s.freeTick + 1 } := by
  have hw' : State.writeWaits { s with freeTick := s.freeTick + 1 } o = true := hw
  unfold step stepMoves
  simp only [h]
  rw [if_pos]
  have : State.writeWaits { s with freeTick := s.freeTick + 1 } o
      = State.writeWaits { s with inputs := .regWrite o n v :: rest, freeTick := s.freeTick + 1 } o := rfl
  rw [← this, hw']

theorem step_regRead {s : State} {o : BitVec 8} {n : Nat} {rest : List Move}
    (h : s.inputs = .regRead o n :: rest) :
    step s = .next (State.regRead { s with inputs := rest, freeTick := s.freeTick + 1 } o n) := by
  unfold step stepMoves
  simp only [h]

theorem step_consumerRead {s : State} {off n : Nat} {rest : List Move}
    (h : s.inputs = .consumerRead off n :: rest) :
    step s = .next (State.consumerRead { s with inputs := rest, freeTick := s.freeTick + 1 } off n) := by
  unfold step stepMoves
  simp only [h]

theorem step_engine {s : State} {rest : List Move} (h : s.inputs = .engine :: rest) :
    step s = engineStep { s with inputs := rest, freeTick := s.freeTick + 1 } := by
  unfold step stepMoves
  simp only [h]

theorem step_powerOn {s : State} {rest : List Move} (h : s.inputs = .powerOn :: rest) :
    step s = .next (State.powerOn { s with inputs := rest, freeTick := s.freeTick + 1 }) := by
  unfold step stepMoves
  simp only [h]

/-- A listed step of the control path lets it go on, and nothing else. -/
theorem step_control {s : State} {rest : List Move} (h : s.inputs = .control :: rest) :
    step s = controlStep .next { s with inputs := rest, freeTick := s.freeTick + 1 } := by
  unfold step stepMoves
  simp only [h]

/-- With no move from outside the control path, and then the offload engine, go on. -/
theorem step_idle {s : State} (h : s.inputs = []) :
    step s = controlStep engineStep { s with freeTick := s.freeTick + 1 } := by
  unfold step stepMoves
  simp only [h]

/-- While FAULTED no write waits. -/
theorem State.writeWaits_of_faulted {s : State} (h : s.lifeState = .faulted) (o : BitVec 8) :
    s.writeWaits o = false := by
  rw [State.writeWaits, State.controlWork, if_pos h]
  rfl

end Sys2Proof.Machine
end

