-- ==== Sys2Proof/Tests/Slice0.lean ====
section
/-! SUPPORT. Tests of one step each. Every expected value is taken from the spec: the encodings of 30_encoding.md and
the vectors of 95_test_vectors.md, whose names the comments give. The witnesses of the statements stand in
Tests/Witnesses.lean. -/

open Sys2Proof Sys2Proof.Machine

namespace Sys2Proof.Tests

/-! ### Small states and readings -/

/-- The state a step answers; the reset state where it answers none. -/
def after : Result → State
  | .next t => t
  | .fault _ => State.reset
  | .refused _ => State.reset

/-- Cause, FAULT_INFO0, FAULT_INFO1 and FAULT_OP of the state a step answers, as 95_test_vectors.md writes them. -/
def faultOf (r : Result) : Cause × Nat × Nat × BitVec 8 :=
  ((after r).faultCause, (after r).faultInfo0.toNat, (after r).faultInfo1.toNat, (after r).faultOp)

/-- WP, WL, RC and NEW of the state a step answers. -/
def cursorsOf (r : Result) : Int × Int × Int × Int :=
  ((after r).writePos.toInt, (after r).writeLen.toInt, (after r).readCursor.toInt, (after r).nextExpected.toInt)

/-- STORAGE bytes [off, off + n). -/
def bytesAt (s : State) (off n : Nat) : List (Option Byte) := (List.range n).map fun k => Memory.read s.storage (off + k)

/-- The s16 values of a byte list, as integers. -/
def samplesOf (bs : List Byte) : List Int := (halvesOf bs).map BitVec.toInt

/-- The bytes of s16 values. -/
def bytesOf (xs : List Int) : List Byte := xs.flatMap fun x => halfBytes (BitVec.ofInt 16 x)

/-- STORAGE holding the given bytes from an offset on. -/
def cellsFrom (off : Nat) (bs : List Byte) : List Host.Cell := Memory.writeBytes [] off bs

/-- READY after INIT size, reserved, on an instance that accepts codec version 1 (95_test_vectors.md, "any instance"). -/
def ready (size reserved : Word) : State :=
  { State.reset with lifeState := .ready, sizeBytes := size, stateReserved := reserved, codecVersions := [1] }

/-- The setup of S-1: INIT 128, 0; SET_WIDTH 1; SET_SOURCE 1, 0. The source is an outside one. -/
def setupS1 : State := { ready 128 0 with wc := 1, widthSet := true, sourceId := 1, sourceSet := true }

/-- That setup inside a source's read, the window at position 0 with `wl` samples. -/
def readS1 (wl : Word) : State := { setupS1 with inRead := true, getSuspended := true, writeLen := wl }

/-- HEADER of RAMP: row 0 is eight copies of 2048, row 1 is zero, and a skip count of 0. -/
def rampHeader : List Byte := (List.replicate 8 [0x08, 0x00]).flatten ++ List.replicate 20 0

/-- HEADER of ZERO. -/
def zeroHeader : List Byte := List.replicate 36 0

/-- The frame of RAMP: scale 0, predictor 0, every residual 1. -/
def rampFrame : List Byte := 0 :: List.replicate 8 0x11

/-- The VADPCM setup before its VOPEN: INIT 128, 48; SET_WIDTH 1; SET_SOURCE 2, 48. -/
def setupV (stream header : List Byte) : State :=
  { ready 128 48 with
    wc := 1
    widthSet := true
    sourceId := 2
    sourceSet := true
    stateSize := 48
    media := [(2, ⟨stream, header, .external⟩)] }

/-- After VOPEN 0x00010012, 160, 0, inside the read of GET 0, 16, and after APPEND 16. -/
def readV (stream header : List Byte) : State :=
  { setupV stream header with
    inRead := true
    getSuspended := true
    writeLen := 16
    vOpen := true
    vOrder := 2
    vPcount := 1
    vChannels := 1
    vVersion := 1
    vLength := 160
    vSkipBase := 32
    vHist := some [[0, 0]] }

/-- The job of VJOB 0, 1, 23 with a captured frame. -/
def jobOf (frame : List Byte) : Job := ⟨.vjob, 0, 32, 0, 1, frame⟩

/-- IDENT (95_test_vectors.md section 2.3): every symbol has a 4-bit code equal to itself. -/
def identContext : List Byte := List.replicate 8 0x44 ++ [0, 1, 2, 3, 4, 5, 6, 7] ++ [8, 9, 10, 11, 12, 13, 14, 15]

/-- The table of IDENT (V-HU-1). -/
def identTable : List Byte := (List.range 256).map fun x => BitVec.ofNat 8 (x / 16 * 16 + 4)

/-- The entropy setup (VOPEN 0x00010412), with three contexts. -/
def setupH (stream c0 c1 c2 : List Byte) : State :=
  { setupV stream (List.replicate 32 0 ++ c0 ++ c1 ++ c2 ++ List.replicate 4 0) with
    vOpen := true
    vEntropy := true
    vOrder := 2
    vPcount := 1
    vChannels := 1
    vVersion := 1
    vLength := 160
    vSkipBase := 104
    vHist := some [[0, 0]] }

/-- The entropy setup with built tables, inside a read and after APPEND 16. -/
def readH (stream : List Byte) : State :=
  { setupH stream identContext identContext identContext with
    hBuilt := true
    hTab := ⟨some identTable, some identTable, some identTable⟩
    inRead := true
    getSuspended := true
    writeLen := 16 }

/-! ### Well-formedness: each check refuses an ill-formed term -/

theorem test_wf_command_accepts : (Command.mk 0 0x31).wellFormed = true := by decide
theorem test_wf_command_reserved_bits : (Command.mk 1 0x05).wellFormed = false := by decide
theorem test_wf_command_unlisted_opcode : (Command.mk 0 0x09).wellFormed = false := by decide
theorem test_wf_width_accepts : wellFormedWidthWord 0x00000002 = true := by decide
theorem test_wf_width_reserved_bits : wellFormedWidthWord 0x00000006 = false := by decide
theorem test_wf_width_code_three : wellFormedWidthWord 0x00000003 = false := by decide
theorem test_wf_config_accepts : wellFormedConfigWord 0x00010412 = true := by decide
theorem test_wf_config_reserved_bits : wellFormedConfigWord 0x00010812 = false := by decide
theorem test_wf_config_order :
    wellFormedConfigWord 0x00010010 = false ∧ wellFormedConfigWord 0x00010019 = false := by decide
theorem test_wf_config_pcount :
    wellFormedConfigWord 0x00010002 = false ∧ wellFormedConfigWord 0x00010112 = false := by decide

/-! ### Decoding: 30_encoding.md R120 and R122, bit by bit -/

theorem test_decode_init : decode 0b00000000000000000000000000000001#32 = .ok .init := by decide
theorem test_decode_close : decode 0b00000000000000000000000000000010#32 = .ok .close := by decide
theorem test_decode_setWidth : decode 0b00000000000000000000000000000011#32 = .ok .setWidth := by decide
theorem test_decode_setSource : decode 0b00000000000000000000000000000100#32 = .ok .setSource := by decide
theorem test_decode_get : decode 0b00000000000000000000000000000101#32 = .ok .get := by decide
theorem test_decode_discard : decode 0b00000000000000000000000000000110#32 = .ok .discard := by decide
theorem test_decode_flush : decode 0b00000000000000000000000000000111#32 = .ok .flush := by decide
theorem test_decode_drain : decode 0b00000000000000000000000000001000#32 = .ok .drain := by decide
theorem test_decode_append : decode 0b00000000000000000000000000010000#32 = .ok .append := by decide
theorem test_decode_undo : decode 0b00000000000000000000000000010001#32 = .ok .undo := by decide
theorem test_decode_readDone : decode 0b00000000000000000000000000010010#32 = .ok .readDone := by decide
theorem test_decode_scopy : decode 0b00000000000000000000000000010011#32 = .ok .scopy := by decide
theorem test_decode_vopen : decode 0b00000000000000000000000000100000#32 = .ok .vopen := by decide
theorem test_decode_vseek : decode 0b00000000000000000000000000100001#32 = .ok .vseek := by decide
theorem test_decode_vstage : decode 0b00000000000000000000000000100010#32 = .ok .vstage := by decide
theorem test_decode_vjob : decode 0b00000000000000000000000000100011#32 = .ok .vjob := by decide
theorem test_decode_hbuild : decode 0b00000000000000000000000000110000#32 = .ok .hbuild := by decide
theorem test_decode_hdecode : decode 0b00000000000000000000000000110001#32 = .ok .hdecode := by decide

/-- V-EN-3: words that stand for no command. -/
theorem test_decode_unlisted :
    [0x00000009#32, 0x0000000F, 0x00000014, 0x00000024, 0x00000032, 0x000000FF].map decode
      = List.replicate 6 (.error .unlistedOpcode) := by decide

/-- V-FT-25: a non-zero RSV field. -/
theorem test_decode_reserved : decode 0x00000105 = .error .reservedBits := by decide

/-- A command word placed as the next one is the first instruction after reset. -/
theorem test_fetch_runs_the_word :
    (after (step (State.reset.withFetchWord 32 0x05))).faultCause = .notInitialised
    ∧ decodeTableWord 32 0x05 = some .get := by decide +kernel

/-! ### Lifecycle and configuration -/

/-- V-SB-13: INIT 128, 32 leaves STATUS = 0x00000009. -/
theorem test_init_ready :
    let t := after (exec .init { State.reset with arg0 := 128, arg1 := 32 })
    t.statusWord = 0x00000009 ∧ t.sizeBytes = 128 ∧ t.stateReserved = 32 ∧ t.nextExpected = -1 := by decide

/-- V-FT-6 and V-FT-7: INIT 60, 0 and INIT 64, 8. -/
theorem test_init_bad_sizes :
    faultOf (exec .init { State.reset with arg0 := 60 }) = (.config, 60, 8, 0x01)
    ∧ faultOf (exec .init { State.reset with arg0 := 64, arg1 := 8 }) = (.config, 8, 16, 0x01) := by decide

/-- V-SB-17, V-EN-8: CLOSE gives the power-on values, and the following GET is not initialised. -/
theorem test_close_powers_on :
    let t := after (exec .close { setupS1 with writeLen := 32, nextExpected := 32 })
    t.statusWord = 0x00000008 ∧ t.sizeBytes = 0 ∧ t.widthSet = false
    ∧ faultOf (exec .get { t with arg1 := 1 }) = (.notInitialised, 5, 0, 0x05) := by decide

/-- V-SB-16: SET_WIDTH 1 again closes the VADPCM unit and changes nothing else. -/
theorem test_setWidth_again :
    after (exec .setWidth { setupS1 with arg0 := 1, vOpen := true }) = { setupS1 with arg0 := 1 } := by decide

/-- V-FT-4 and V-EN-5: width words 3 and 6. -/
theorem test_setWidth_bad :
    faultOf (exec .setWidth { ready 64 0 with arg0 := 3 }) = (.badWidth, 3, 0, 0x03)
    ∧ faultOf (exec .setWidth { ready 64 0 with arg0 := 6 }) = (.badWidth, 6, 0, 0x03) := by decide

/-- 40_sample_buffer.md R160: source 0 unbinds; 10_state.md R36. -/
theorem test_setSource_binds :
    (after (exec .setSource { ready 64 48 with arg0 := 2, arg1 := 48 })).sourceSet = true
    ∧ (after (exec .setSource { ready 64 48 with arg0 := 0, arg1 := 48 })).sourceSet = false := by decide

/-- V-FT-5: SET_SOURCE 2, 48 with no reserved state block. -/
theorem test_setSource_too_large :
    faultOf (exec .setSource { ready 64 0 with arg0 := 2, arg1 := 48 }) = (.stateSize, 48, 0, 0x04) := by decide

/-! ### The window -/

/-- V-SB-3: GET 8, 8 of a resident range: no read, RES0 = 16, RES1 = 8, RC = 8. -/
theorem test_get_resident :
    let r := exec .get { setupS1 with writeLen := 32, readCursor := 16, nextExpected := 32, arg0 := 8, arg1 := 8 }
    cursorsOf r = (0, 32, 8, 32) ∧ (after r).res0 = 16 ∧ (after r).res1 = 8 ∧ (after r).inRead = false := by decide

/-- V-SB-8: GET 5, 3 with one byte per sample presents Read(4, 8, 1). -/
theorem test_get_odd_position :
    let t := after (exec .get { setupS1 with wc := 0, sizeBytes := 64, arg0 := 5, arg1 := 3 })
    t.rreqPos = 4 ∧ t.rreqLen = 8 ∧ t.rreqSeek = true ∧ t.inRead = true ∧ t.writePos = 4 := by decide

/-- V-SB-5: DISCARD 40 after V-SB-4 drops eight samples: sample 40 moves to offset 0. -/
theorem test_discard_moves_down :
    let r := exec .discard { setupS1 with
      writePos := 32
      writeLen := 40
      nextExpected := 72
      arg0 := 40
      storage := cellsFrom 0 (bytesOf ((List.range 40).map fun k => (32 + k : Int))) }
    cursorsOf r = (40, 32, 0, 72) ∧ bytesAt (after r) 0 4 = [some 0, some 40, some 0, some 41]
    ∧ bytesAt (after r) 62 4 = [some 0, some 71, none, none] := by decide +kernel

/-- V-SB-10: DISCARD 7 with one byte per sample drops an even number. -/
theorem test_discard_even :
    cursorsOf (exec .discard { setupS1 with
      wc := 0, sizeBytes := 64, writePos := 4, writeLen := 16, readCursor := 4, nextExpected := 20, arg0 := 7 })
      = (6, 14, 2, 20) := by decide

/-- V-SB-12: FLUSH. -/
theorem test_flush :
    let r := exec .flush { setupS1 with writeLen := 2, nextExpected := 2, storage := cellsFrom 0 [1, 2, 3, 4] }
    cursorsOf r = (0, 0, 0, -1) ∧ (after r).emptyFlag = true ∧ bytesAt (after r) 0 4 = [none, none, none, none] := by
  decide

/-- V-FT-11: a source that issues FLUSH. -/
theorem test_flush_reentrant : faultOf (exec .flush (readS1 0)) = (.reentrant, 7, 0, 0x07) := by decide

/-- 40_sample_buffer.md R215: DRAIN with no job pending changes nothing; with one it is held. -/
theorem test_drain :
    after (exec .drain setupS1) = setupS1
    ∧ (after (exec .drain { setupS1 with queue := [jobOf rampFrame] })).held = some .drain := by decide

/-- V-SB-6: APPEND 8 compacts 28 samples: WP = 28, RC = 2, WL = 12, RES0 = 8. -/
theorem test_append_compacts :
    let r := exec .append { readS1 32 with sizeBytes := 64, readCursor := 30, nextExpected := 32, arg0 := 8 }
    cursorsOf r = (28, 12, 2, 32) ∧ (after r).res0 = 8 := by decide

/-- V-FT-8, V-FT-9 and V-SRC-5: CAPACITY, MISALIGNED and HAZARD. -/
theorem test_append_faults :
    faultOf (exec .append { readS1 0 with sizeBytes := 32, arg0 := 20 }) = (.capacity, 20, 16, 0x10)
    ∧ faultOf (exec .append { readS1 3 with arg0 := 4 }) = (.misaligned, 6, 4, 0x10)
    ∧ faultOf (exec .append { readS1 20 with queue := [⟨.vjob, 0, 64, 0, 2, []⟩], arg0 := 16 })
      = (.hazard, 40, 0, 0x10) := by decide

/-- V-SB-15: UNDO 16. -/
theorem test_undo :
    let r := exec .undo { readS1 32 with readCursor := 20, arg0 := 16, storage := cellsFrom 30 [1, 2, 3] }
    cursorsOf r = (0, 16, 16, -1) ∧ bytesAt (after r) 30 3 = [some 1, some 2, none] := by decide

/-- V-FT-10: UNDO 9 of 8 samples. -/
theorem test_undo_underflow :
    faultOf (exec .undo { readS1 8 with arg0 := 9 }) = (.undoUnderflow, 9, 8, 0x11) := by decide

/-- V-SB-11, second GET: READ_DONE, then the suspended GET finds 4 of 16 samples. -/
theorem test_readDone_and_underrun :
    let s := { readS1 20 with gWpos := 16, gWlen := 16, readCursor := 16, nextExpected := 16 }
    let r := step (after (exec .readDone s))
    (after (exec .readDone s)).inRead = false
    ∧ cursorsOf r = (0, 20, 16, 20) ∧ (after r).res0 = 32 ∧ (after r).res1 = 4 := by decide

/-- V-SRC-1: SCOPY 0, 0, 32, here of four bytes of RAW200. -/
theorem test_scopy :
    bytesAt (after (exec .scopy { readS1 16 with
      arg2 := 4, media := [(1, ⟨[0, 0, 0, 1, 0, 2], [], .external⟩)] })) 0 5
      = [some 0, some 0, some 0, some 1, none] := by decide

/-- V-FT-18: SCOPY 0, 0, 2 into the range of a pending job. -/
theorem test_scopy_hazard :
    faultOf (exec .scopy { readV rampFrame zeroHeader with queue := [jobOf rampFrame], arg2 := 2 })
      = (.hazard, 0, 0, 0x13) := by decide

/-! ### The VADPCM unit -/

/-- V-VA-13: VOPEN 0x00010012, 160, 0 leaves V_CONFIG = 0x00010812. -/
theorem test_vopen :
    let t := after (exec .vopen { setupV [] rampHeader with arg0 := 0x00010012, arg1 := 160 })
    t.vConfigWord = 0x00010812 ∧ t.vLength = 160 ∧ t.vSkipCount = 0 ∧ t.vHist = some [[0, 0]] := by decide

/-- V-FT-19, V-FT-20, V-FT-22 and V-EN-7: STATE_SIZE, the width, a HEADER too short, and a reserved bit; 41_vadpcm.md
R230: a version the instance does not accept. -/
theorem test_vopen_faults :
    faultOf (exec .vopen { setupV [] rampHeader with stateSize := 32, arg0 := 0x00010012, arg1 := 16 })
      = (.stateSize, 32, 48, 0x20)
    ∧ faultOf (exec .vopen { setupV [] rampHeader with wc := 2, arg0 := 0x00010012, arg1 := 16 })
      = (.config, 2, 1, 0x20)
    ∧ faultOf (exec .vopen { setupV [] (List.replicate 32 0) with arg0 := 0x00010012, arg1 := 16 })
      = (.config, 32, 32, 0x20)
    ∧ faultOf (exec .vopen { setupV [] rampHeader with arg0 := 0x00010800 }) = (.config, 0x00010800, 0, 0x20)
    ∧ faultOf (exec .vopen { setupV [] rampHeader with arg0 := 0x00020012 }) = (.config, 2, 0, 0x20) := by decide

/-- V-VA-12: VSEEK 32 with the skip entry (32, 150, [5, -7]). -/
theorem test_vseek_entry :
    let t := after (exec .vseek { readV [] (List.replicate 32 0 ++ [0, 0, 0, 1] ++ [0, 0, 0, 32] ++ [0, 0, 0, 150]
      ++ [0x00, 0x05, 0xFF, 0xF9]) with vSkipCount := 1, arg0 := 32 })
    t.vHist = some [[5, -7]] ∧ t.vBitPos = 150 ∧ t.vDecPos = 32 ∧ t.vByteCursor = 18 := by decide

/-- V-FT-15: VSEEK 48 without an entry. -/
theorem test_vseek_untabulated :
    faultOf (exec .vseek { readV [] rampHeader with arg0 := 48 }) = (.seekUntabulated, 48, 0, 0x21) := by decide

/-- V-VA-11: VSTAGE 23, 1, 0 copies the frame and moves both cursors. -/
theorem test_vstage :
    let t := after (exec .vstage { readV rampFrame rampHeader with arg0 := 23, arg1 := 1 })
    bytesAt t 23 9 = rampFrame.map some ∧ t.vDecPos = 16 ∧ t.vByteCursor = 9 := by decide

/-- V-FT-16 and V-FT-24: DESYNC and STREAM_IO; 41_vadpcm.md R245: a negative pos that is not V_DEC_POS is DESYNC;
92_eei_decisions.md D4: an end beyond POS_MAX. -/
theorem test_vstage_faults :
    faultOf (exec .vstage { readV rampFrame zeroHeader with arg0 := 23, arg1 := 1, arg2 := 16 }) = (.desync, 16, 0, 0x22)
    ∧ faultOf (exec .vstage { readV rampFrame zeroHeader with writeLen := 32, arg0 := 46, arg1 := 2 })
      = (.streamIo, 0, 9, 0x22)
    ∧ faultOf (exec .vstage { readV rampFrame zeroHeader with arg0 := 23, arg1 := 1, arg2 := -1 })
      = (.desync, 0xFFFFFFFF, 0, 0x22)
    ∧ faultOf (exec .vstage { readV rampFrame zeroHeader with
        arg0 := 23, arg1 := 1, arg2 := 0x7FFFFFF0, vDecPos := 0x7FFFFFF0 })
      = (.badArg, 0x7FFFFFF0, 16, 0x22) := by decide

/-- V-VA-11: VJOB 0, 1, 23 captures the staged frame and does not touch V_HIST. -/
theorem test_vjob :
    let t := after (exec .vjob { readV rampFrame rampHeader with
      arg0 := 0, arg1 := 1, arg2 := 23, storage := cellsFrom 23 rampFrame })
    t.queue = [jobOf rampFrame] ∧ t.vHist = some [[0, 0]] := by decide

/-- V-FT-17: VJOB with nothing staged. -/
theorem test_vjob_unwritten :
    faultOf (exec .vjob { readV rampFrame zeroHeader with arg1 := 1, arg2 := 23 }) = (.unwritten, 23, 9, 0x23) := by
  decide

/-! ### Retirement -/

/-- V-VA-4 and V-VA-2: the residuals of a frame, first nibble high, scaled and clamped. -/
theorem test_frame_residuals :
    frameResiduals (0x30 :: [0x8F, 0x7F, 0x8F, 0x7F, 0x8F, 0x7F, 0x8F, 0x7F])
      = (List.replicate 4 [-64, -8, 56, -8]).flatten
    ∧ (frameResiduals (0xF0 :: List.replicate 8 0x88)).map clamp16 = List.replicate 16 (-32768) := by decide

/-- V-VA-5 (REF only): the RAMP frame decodes to 1 .. 16 and V_HIST[0] = [15, 16]. -/
theorem test_retire_ramp :
    let t := after (engineStepWith refPredictor { readV rampFrame rampHeader with queue := [jobOf rampFrame] })
    bytesAt t 0 32 = (bytesOf ((List.range 16).map fun k => (k + 1 : Int))).map some
    ∧ t.vHist = some [[15, 16]] ∧ t.queue = [] := by decide +kernel

/-- V-VA-6 (REF only): the shift is a floor: -2, then -1 in the other lanes. -/
theorem test_predict_floor :
    predict refPredictor [List.replicate 8 1024, List.replicate 8 0] 2 [0, -3] (List.replicate 16 0)
      = -2 :: List.replicate 15 (-1) := by decide +kernel

/-- V-FT-14: predictor 1 of 1 faults at retirement; STATUS = 0x01230F02. -/
theorem test_retire_bad_predictor :
    let r := engineStepWith refPredictor { readV [] zeroHeader with
      inRead := false, queue := [jobOf (1 :: List.replicate 8 0)] }
    faultOf r = (.badPredictor, 1, 1, 0x23) ∧ (after r).statusWord = 0x01230F02 := by decide +kernel

/-! ### The Huffman unit -/

/-- V-HU-1: HBUILD over IDENT three times. -/
theorem test_hbuild_ident :
    let t := after (exec .hbuild (setupH [] identContext identContext identContext))
    t.hBuilt = true ∧ t.hTab = ⟨some identTable, some identTable, some identTable⟩ := by decide +kernel

/-- V-HU-6 and V-HU-12: an overlap in context 1, and a source without entropy coding; 42_huffman.md R280: a fault leaves
H_BUILT = 0. -/
theorem test_hbuild_faults :
    faultOf (exec .hbuild (setupH [] identContext
      ([0x12] ++ List.replicate 7 0 ++ [0, 1] ++ List.replicate 14 0) identContext)) = (.huffMalformed, 0x101, 2, 0x30)
    ∧ faultOf (exec .hbuild { setupV [] zeroHeader with vOpen := true }) = (.config, 0, 1, 0x30)
    ∧ (after (exec .hbuild { setupV [] zeroHeader with hBuilt := true })).hBuilt = false := by decide +kernel

/-- V-HU-3: HDECODE 0 through the IDENT tables gives the stream's own bytes. -/
theorem test_hdecode_ident :
    let t := after (exec .hdecode (readH [0x3A, 0x12, 0x34, 0x56, 0x78, 0x9A, 0xBC, 0xDE, 0xF0]))
    bytesAt t 0 9 = [0x3A, 0x12, 0x34, 0x56, 0x78, 0x9A, 0xBC, 0xDE, 0xF0].map some
    ∧ t.vBitPos = 72 ∧ t.vDecPos = 0 ∧ t.vByteCursor = 0 := by decide +kernel

/-- V-HU-10: symbol 16 would end beyond the stream. -/
theorem test_hdecode_at_the_end :
    let r := exec .hdecode (readH (List.replicate 8 0))
    faultOf r = (.streamIo, 64, 64, 0x31) ∧ (after r).vBitPos = 0 ∧ bytesAt (after r) 0 1 = [none] := by decide +kernel

/-! ### The REG window and consumer reads -/

/-- V-FT-25 to V-FT-28. -/
theorem test_bad_accesses :
    faultOf (step { setupS1 with inputs := [issueMove 0x00000105] }) = (.illegalCommand, 0x105, 0, 0x05)
    ∧ faultOf (step { setupS1 with inputs := [issueMove 0x00000000] }) = (.illegalCommand, 0, 0, 0x00)
    ∧ faultOf (step { setupS1 with inputs := [.regRead 0x00 32] }) = (.badReg, 0x00, 0, 0x00)
    ∧ faultOf (step { setupS1 with inputs := [.regWrite 0x14 32 7] }) = (.badReg, 0x14, 1, 0x00) := by decide

/-- P1's end state: BUF_CONFIG = 0x0000000D and CAPACITY = 64. -/
theorem test_register_reads :
    (after (step { setupS1 with inputs := [.regRead 0x3C 32] })).hostWord = some 0x0000000D
    ∧ (after (step { setupS1 with inputs := [.regRead 0x38 32] })).hostWord = some 64 := by decide

/-- 70_reset_and_hazards.md R392: a program needs no wait after a CLOSE that drains: the operands written after it are
INIT's, not cleared by its completion. -/
theorem test_close_then_init :
    let s : State := { setupS1 with
      queue := [⟨.vjob, 0, 0, 0, 0, []⟩]
      inputs := [issueMove 0x02, .regWrite 0x04 32 128, .regWrite 0x08 32 32, issueMove 0x01] }
    let go := fun t => after (step t)
    let t := go (go (go (go (go (go s)))))
    t.lifeState = .ready ∧ t.sizeBytes = 128 ∧ t.stateReserved = 32 ∧ t.inputs = [] := by decide

/-- V-FT-12, the order in which the GET completes before the consumer reads (60_exceptions.md R346). -/
theorem test_get_completes_before_a_read :
    let s : State := { readS1 4 with
      inRead := false, gWlen := 4, inputs := [.control, .consumerRead 0 8] }
    let t := after (step s)
    t.getSuspended = false ∧ t.res1 = 4 ∧ t.inputs = [.consumerRead 0 8] ∧ t.lifeState = .ready := by decide

/-- V-FT-12 and V-VA-10: a consumer read of bytes without a value, and of a pending job's range. -/
theorem test_consumer_read_faults :
    faultOf (step { setupS1 with writeLen := 4, inputs := [.consumerRead 0 8] }) = (.unwritten, 0, 8, 0x00)
    ∧ faultOf (step { setupS1 with queue := [jobOf rampFrame], inputs := [.consumerRead 0 32] })
      = (.hazard, 0, 0, 0x00) := by decide

/-- V-EN-9: FAULTED inside a read, not empty, HAZARD by APPEND, one job pending. -/
theorem test_status_fields :
    (after (exec .append { readS1 20 with queue := [⟨.vjob, 0, 64, 0, 2, []⟩], arg0 := 16 })).statusWord
      = 0x01100D06 := by decide

end Sys2Proof.Tests
end

