-- ==== Sys2Proof/Tests/Witnesses.lean ====
section
/-! SUPPORT. Witnesses: for each statement of Certificates/Slice0/Obligations.lean with hypotheses, a concrete state
and operands that meet them, clause by clause. -/

open Sys2Proof Sys2Proof.Machine

namespace Sys2Proof.Tests

/-- The window's invariant of a state that holds no command. -/
theorem windowInvariant_of {s : State} (hb : s.windowBounds)
    (hg : s.getSuspended = true ∨ s.inRead = false ∧ s.cursorInvariants) (hh : s.held = none) :
    s.windowInvariant := by
  refine .inr ⟨hb, fun h => ?_, ?_, ?_, ?_⟩
  · rcases hg with hg | hg
    · rw [h] at hg; cases hg
    · exact hg
  all_goals simp [hh]

/-- Whether a result is a next state with a property. -/
def nextWith (p : State → Prop) [DecidablePred p] : Result → Bool
  | .next t => decide (p t)
  | .fault _ => false
  | .refused _ => false

theorem exists_next {p : State → Prop} [DecidablePred p] {r : Result} (h : nextWith p r = true) :
    ∃ t, r = .next t ∧ p t := by
  cases r with
  | next t => exact ⟨t, rfl, of_decide_eq_true h⟩
  | fault _ => cases h
  | refused _ => cases h

/-- The next state of a result, read off. -/
theorem next_of {t : State} {r : Result} (h : nextWith (fun u => u = t) r = true) : r = .next t := by
  obtain ⟨_, hr, rfl⟩ := exists_next h
  exact hr

/-- The first check fails. -/
theorem fails_first {p : Prop} {t : Trap} {rest : List (Prop × Trap)} (h : p) : firstFailing ((p, t) :: rest) t :=
  .inl ⟨h, rfl⟩

/-- A check that passes leaves the decision to the rest. -/
theorem fails_later {p : Prop} {t x : Trap} {rest : List (Prop × Trap)} (h : ¬ p) (hr : firstFailing rest x) :
    firstFailing ((p, t) :: rest) x := .inr ⟨h, hr⟩

theorem allPass_nil : allPass [] := nofun

theorem allPass_cons {p : Prop} {t : Trap} {rest : List (Prop × Trap)} (h : ¬ p) (hr : allPass rest) :
    allPass ((p, t) :: rest) := by
  intro c hc
  rcases List.mem_cons.mp hc with rfl | hc
  · exact h
  · exact hr c hc

/-- The resident window of V-SB-2: position 0, 32 samples, READ_CURSOR 16. -/
def windowS1 : State := { setupS1 with writeLen := 32, readCursor := 16, nextExpected := 32, gWpos := 16, gWlen := 16 }

/-- A state with one pending job over STORAGE [0, 32). -/
def busyS1 : State := { windowS1 with queue := [jobOf rampFrame] }

/-- The entropy setup at a read whose HDECODE passes. -/
def decodeH : State := readH [0x3A, 0x12, 0x34, 0x56, 0x78, 0x9A, 0xBC, 0xDE, 0xF0]

/-- The same at the stream's end. -/
def shortH : State := readH (List.replicate 8 0)

/-- The ZERO source with one staged job to retire. -/
def retiringV : State := { readV rampFrame zeroHeader with queue := [jobOf rampFrame] }

/-- The skip entry of V-VA-12: (32, 150, [5, -7]). -/
def seekingV : State :=
  { readV [] (List.replicate 32 0 ++ [0, 0, 0, 1] ++ [0, 0, 0, 32] ++ [0, 0, 0, 150] ++ [0x00, 0x05, 0xFF, 0xF9]) with
    vSkipCount := 1
    arg0 := 32 }

/-! ### Decoding and the step -/

theorem witness_stepRunsTheWrittenCommand :
    (let s : State := { setupS1 with inputs := [issueMove 0x07] };
      s.inputs = issueMove 0x07 :: [] ∧ decode 0x07 = .ok .flush ∧ s.writeWaits 0 = false)
    ∧ (let s : State := { setupS1 with inputs := [issueMove 0x07], held := some .drain };
      s.inputs = issueMove 0x07 :: [] ∧ decode 0x07 = .ok .flush ∧ s.writeWaits 0 = true)
    ∧ (let s : State := { setupS1 with inputs := [.regWrite 0x04 32 128], held := some .close };
      s.inputs = .regWrite 0x04 32 128 :: [] ∧ s.lifeState ≠ .faulted ∧ s.held = some .close) := by decide

theorem witness_reservedAndEarlyCommandsFault :
    (let s : State := { setupS1 with inputs := [issueMove 0x105] };
      s.nextIsCommand 0x105 [] ∧ s.lifeState ≠ .faulted)
    ∧ (∀ i, (0x105 : Word) ≠ encode i)
    ∧ (let s : State := { State.reset with inputs := [issueMove 0x31] };
      s.nextIsCommand 0x31 [] ∧ s.lifeState = .uninit ∧ Instr.hdecode ≠ .init ∧ 0x31 = encode .hdecode)
    ∧ (let s : State := { setupS1 with lifeState := .faulted, inputs := [issueMove 0x07] };
      s.nextIsCommand 0x07 [] ∧ s.lifeState = .faulted) := by
  refine ⟨by decide, ?_, by decide, by decide⟩
  intro i
  cases i <;> decide

theorem witness_commandClassesAreChecked :
    ((readS1 0).lifeState = .ready ∧ commandClass .flush = .host ∧ (readS1 0).inRead = true)
    ∧ (setupS1.lifeState = .ready ∧ commandClass .append = .source ∧ setupS1.inRead = false)
    ∧ (setupS1.lifeState = .ready ∧ setupS1.queue = []) ∧ (busyS1.lifeState = .ready ∧ busyS1.queue ≠ []) := by decide

theorem witness_faultingCommandKeepsItsContext :
    let s : State := { setupS1 with arg0 := -1 }
    s.lifeState ≠ .faulted ∧ ∃ t, exec .get s = .next t ∧ t.lifeState = .faulted :=
  ⟨by decide, _, rfl, by decide⟩

theorem witness_faultedStateIsSticky :
    let s : State := { setupS1 with lifeState := .faulted }
    s.lifeState = .faulted
    ∧ State.inputs { s with inputs := [issueMove 0x07] } = issueMove 0x07 :: []
    ∧ State.inputs { s with inputs := [.regWrite 0x10 32 5] } = .regWrite 0x10 32 5 :: []
    ∧ (State.inputs { s with inputs := [.regRead 0x1C 32] } = .regRead 0x1C 32 :: []
      ∧ (0x1C#8).toNat % 4 = 0 ∧ s.registerValue 0x1C = some 0x0000000A)
    ∧ (∃ t, step s = .next t) ∧ (∀ rest, s.inputs ≠ .powerOn :: rest) :=
  ⟨by decide, by decide, by decide, by decide, ⟨_, rfl⟩, nofun⟩

theorem witness_powerOnReset : State.inputs { setupS1 with inputs := [.powerOn] } = .powerOn :: [] := by decide

/-! ### The REG window and consumer reads -/

theorem witness_channels : ∃ a b : State, a.vChannels.toNat = 1 ∧ b.vChannels.toNat = 2 :=
  ⟨{ setupS1 with vChannels := 1 }, { setupS1 with vChannels := 2 }, by decide, by decide⟩

theorem witness_misshapenRegisterAccessFaults :
    setupS1.lifeState ≠ .faulted
    ∧ (16 ≠ 32 ∧ State.inputs { setupS1 with inputs := [.regRead 0x04 16] } = .regRead 0x04 16 :: [])
    ∧ ((0x05#8).toNat % 4 ≠ 0 ∧ State.inputs { setupS1 with inputs := [.regRead 0x05 32] } = .regRead 0x05 32 :: [])
    ∧ (State.inputs { setupS1 with inputs := [.regWrite 0x00 64 1] } = .regWrite 0x00 64 1 :: []
      ∧ State.writeWaits { setupS1 with inputs := [.regWrite 0x00 64 1] } 0x00 = false) := by decide

theorem witness_registerAccessFollowsTheMap :
    setupS1.lifeState ≠ .faulted
    ∧ ((0x04#8, setupS1.arg0) ∈ setupS1.readableRegisters ∧ (0x9C#8, setupS1.hStatusWord) ∈ setupS1.readableRegisters)
    ∧ (State.inputs { setupS1 with inputs := [.regRead 0x04 32] } = .regRead 0x04 32 :: [] ∧ (0x04#8).toNat % 4 = 0
      ∧ (0x9C#8).toNat % 4 = 0)
    ∧ ((0x58 < (0x5C#8).toNat ∧ (0x5C#8).toNat < 0x80) ∧ 0x9C < (0xA0#8).toNat)
    ∧ (State.writeWaits { setupS1 with inputs := [.regWrite 0x14 32 1] } 0x14 = false ∧ 0x10 < (0x14#8).toNat)
    ∧ ∀ o ∈ [0x04#8, 0x08#8, 0x0C#8, 0x10#8],
        State.writeWaits { setupS1 with inputs := [.regWrite o 32 1] } o = false ∧ o.toNat % 4 = 0 := by decide

theorem witness_consumerRead :
    (let s : State := { busyS1 with inputs := [.consumerRead 31 97] };
      s.lifeState ≠ .faulted ∧ s.inputs = .consumerRead 31 97 :: [] ∧ 31 + 97 ≤ s.storageSize
      ∧ ¬ s.noHazard 31 (31 + 97))
    ∧ (let s : State := { busyS1 with inputs := [.consumerRead 32 1] };
      s.inputs = .consumerRead 32 1 :: [] ∧ s.noHazard 32 (32 + 1) ∧ ∃ k < 1, Memory.read s.storage (32 + k) = none)
    ∧ (let s : State := { busyS1 with storage := cellsFrom 32 [7, 8], inputs := [.consumerRead 32 2] };
      s.inputs = .consumerRead 32 2 :: [] ∧ s.noHazard 32 (32 + 2)
      ∧ ∀ k < 2, Memory.read s.storage (32 + k) ≠ none) := by decide

/-! ### Lifecycle and configuration -/

theorem witness_init :
    (setupS1.inRead = false ∧ setupS1.lifeState = .ready)
    ∧ (State.reset.inRead = false ∧ State.reset.lifeState = .uninit ∧ State.reset.arg0.toNat = 0)
    ∧ (let s : State := { State.reset with arg0 := 60 }; s.arg0.toNat % 8 ≠ 0)
    ∧ (let s : State := { State.reset with arg0 := 8, arg1 := 8 };
      s.arg0.toNat ≠ 0 ∧ s.arg0.toNat % 8 = 0 ∧ s.arg1.toNat % 16 ≠ 0)
    ∧ (let s : State := { State.reset with arg0 := 0x7FFFFFF8, arg1 := 16 };
      s.arg0.toNat ≠ 0 ∧ s.arg0.toNat % 8 = 0 ∧ s.arg1.toNat % 16 = 0 ∧ posMax < s.arg0.toNat + s.arg1.toNat)
    ∧ (let s : State := { State.reset with arg0 := 0x7FFFFFF8 };
      s.arg0.toNat ≠ 0 ∧ s.arg0.toNat % 8 = 0 ∧ s.arg1.toNat % 16 = 0
      ∧ s.arg0.toNat + s.arg1.toNat ≤ posMax) := by decide

theorem witness_close :
    (busyS1.hostMayIssue ∧ busyS1.queue ≠ []) ∧ (setupS1.hostMayIssue ∧ setupS1.queue = [])
    ∧ (let s : State := { setupS1 with held := some .close };
      s.lifeState = .ready ∧ s.held = some .close ∧ s.queue = [] ∧ s.inputs = []) := by decide

theorem witness_setWidth :
    (let s : State := { setupS1 with arg0 := 4 }; s.hostMayIssue ∧ s.arg0.extractLsb' 2 30 ≠ 0)
    ∧ (let s : State := { setupS1 with arg0 := 3 }; s.arg0.extractLsb' 0 2 = 3)
    ∧ (let s : State := { windowS1 with arg0 := 2 };
      s.hostMayIssue ∧ s.arg0.extractLsb' 2 30 = 0 ∧ s.arg0.extractLsb' 0 2 ≠ 3
      ∧ ¬ (s.writePos = 0 ∧ s.writeLen = 0 ∧ s.readCursor = 0 ∧ s.nextExpected = -1))
    ∧ (let s : State := { setupS1 with arg0 := 0 };
      s.arg0.extractLsb' 2 30 = 0 ∧ s.arg0.extractLsb' 0 2 ≠ 3
      ∧ s.writePos = 0 ∧ s.writeLen = 0 ∧ s.readCursor = 0 ∧ s.nextExpected = -1) := by decide

theorem witness_setSource :
    (windowS1.hostMayIssue
      ∧ ¬ (windowS1.writePos = 0 ∧ windowS1.writeLen = 0 ∧ windowS1.readCursor = 0 ∧ windowS1.nextExpected = -1))
    ∧ (setupS1.hostMayIssue ∧ setupS1.writePos = 0 ∧ setupS1.writeLen = 0 ∧ setupS1.readCursor = 0
      ∧ setupS1.nextExpected = -1)
    ∧ (let s : State := { setupS1 with arg1 := 1 }; s.arg1.toNat % 16 ≠ 0)
    ∧ (let s : State := { setupS1 with arg1 := 16 }; s.arg1.toNat % 16 = 0 ∧ s.stateReserved.toNat < s.arg1.toNat)
    ∧ (let s : State := { setupS1 with stateReserved := 48, arg1 := 48, queue := [jobOf rampFrame] };
      s.arg1.toNat % 16 = 0 ∧ s.arg1.toNat ≤ s.stateReserved.toNat ∧ s.queue ≠ [])
    ∧ (setupS1.arg1.toNat % 16 = 0 ∧ setupS1.arg1.toNat ≤ setupS1.stateReserved.toNat ∧ setupS1.queue = []) := by decide

/-! ### GET -/

theorem witness_getChecks :
    (let s : State := { setupS1 with arg0 := -1 }; s.hostMayIssue ∧ s.arg0.toInt < 0)
    ∧ (let s : State := { setupS1 with arg1 := -1 }; 0 ≤ s.arg0.toInt ∧ s.arg1.toInt < 0)
    ∧ (let s : State := { setupS1 with arg0 := 0x7FFFFFFF, arg1 := 1 };
      0 ≤ s.arg0.toInt ∧ 0 ≤ s.arg1.toInt ∧ posMax < s.arg0.toInt + s.arg1.toInt)
    ∧ (let s : State := { setupS1 with arg0 := 0x7FFFFFFF, widthSet := false };
      s.arg0.toInt + s.arg1.toInt ≤ posMax ∧ s.widthSet = false)
    ∧ (let s : State := { setupS1 with sourceSet := false }; s.widthSet = true ∧ s.sourceSet = false) := by decide

/-- An empty buffer, a position past the window (V-SB-7), an odd position with B = 1 (V-SB-8), the last position, and
one whose request would end beyond POS_MAX. -/
theorem witness_discontinuousGet :
    (let s : State := { setupS1 with arg0 := 16, arg1 := 16 };
      s.getPasses ∧ s.writeLen.toInt = 0 ∧ isRoundUp 16 (s.arg1.toInt + (s.arg0.toInt - 16)) s.granularity)
    ∧ (let s : State := { windowS1 with arg0 := 64, arg1 := 8 };
      s.getPasses ∧ s.writePos.toInt + s.writeLen.toInt ≤ s.arg0.toInt ∧ s.arg0.toInt ≠ s.nextExpected.toInt)
    ∧ (let s : State := { setupS1 with wc := 0, arg0 := 5, arg1 := 3 };
      s.getPasses
      ∧ (4 : Int) = (if s.bytesPerSample = 1 ∧ s.arg0.toInt % 2 = 1 then s.arg0.toInt - 1 else s.arg0.toInt)
      ∧ isRoundUp 8 (s.arg1.toInt + (s.arg0.toInt - 4)) s.granularity ∧ (4 : Int) + 8 ≤ posMax)
    ∧ (let s : State := { setupS1 with arg0 := 0x7FFFFFFF };
      s.getPasses ∧ isRoundUp 0 (s.arg1.toInt + (s.arg0.toInt - posMax)) s.granularity ∧ posMax + 0 ≤ posMax)
    ∧ (let s : State := { setupS1 with arg0 := 0x7FFFFFFE, arg1 := 1 };
      s.getPasses ∧ isRoundUp 4 (s.arg1.toInt + (s.arg0.toInt - (posMax - 1))) s.granularity
      ∧ posMax < posMax - 1 + 4) := by decide

theorem witness_continuousGet :
    let s : State := { windowS1 with arg0 := 32, arg1 := 16 }
    (s.getPasses ∧ s.getSuspended = false ∧ s.writeLen.toInt ≠ 0 ∧ s.writePos.toInt ≤ s.arg0.toInt
      ∧ s.arg0.toInt = s.nextExpected.toInt ∧ s.writePos.toInt + s.writeLen.toInt < s.arg0.toInt + s.arg1.toInt
      ∧ isRoundUp 16 (s.arg0.toInt + s.arg1.toInt - (s.writePos.toInt + s.writeLen.toInt)) s.granularity
      ∧ s.writePos.toInt + s.writeLen.toInt + 16 ≤ posMax)
    ∧ s.windowInvariant :=
  ⟨by decide, windowInvariant_of (by decide) (by decide) rfl⟩

/-- The last window of the position range: a request of one sample more, rounded up, ends beyond POS_MAX. -/
theorem witness_continuousGet_posMax :
    let s : State := { windowS1 with
      writePos := BitVec.ofInt 32 (posMax - 33)
      readCursor := 0
      nextExpected := BitVec.ofInt 32 (posMax - 1)
      arg0 := BitVec.ofInt 32 (posMax - 1)
      arg1 := 1 }
    (s.getPasses ∧ s.getSuspended = false ∧ s.writeLen.toInt ≠ 0 ∧ s.writePos.toInt ≤ s.arg0.toInt
      ∧ s.arg0.toInt = s.nextExpected.toInt ∧ s.writePos.toInt + s.writeLen.toInt < s.arg0.toInt + s.arg1.toInt
      ∧ isRoundUp 4 (s.arg0.toInt + s.arg1.toInt - (s.writePos.toInt + s.writeLen.toInt)) s.granularity
      ∧ posMax < s.writePos.toInt + s.writeLen.toInt + 4)
    ∧ s.windowInvariant :=
  ⟨by decide, windowInvariant_of (by decide) (by decide) rfl⟩

theorem witness_residentGet :
    let s : State := { windowS1 with arg0 := 8, arg1 := 24 }
    (s.getPasses ∧ s.writePos.toInt ≤ s.arg0.toInt ∧ s.arg0.toInt < s.writePos.toInt + s.writeLen.toInt
      ∧ s.arg0.toInt + s.arg1.toInt ≤ s.writePos.toInt + s.writeLen.toInt)
    ∧ s.windowInvariant :=
  ⟨by decide, windowInvariant_of (by decide) (by decide) rfl⟩

/-- No sample, at the window's end. -/
theorem witness_residentGet_atTheEnd :
    let s : State := { windowS1 with arg0 := 32, arg1 := 0 }
    (s.getPasses ∧ s.writeLen.toInt ≠ 0 ∧ s.writePos.toInt ≤ s.arg0.toInt ∧ s.arg0.toInt = s.nextExpected.toInt
      ∧ s.arg0.toInt + s.arg1.toInt ≤ s.writePos.toInt + s.writeLen.toInt)
    ∧ s.windowInvariant :=
  ⟨by decide, windowInvariant_of (by decide) (by decide) rfl⟩

/-- A GET at position 16 whose read has just ended after `len` samples, with the moves to come. -/
def readEndedS1 (len : Word) (moves : List Move) : State :=
  { readS1 len with
    inRead := false
    gWpos := 16
    gWlen := 16
    readCursor := 16
    nextExpected := 16
    inputs := moves }

/-- READ_DONE, and an underrun of 4 of 16 samples (V-SB-11): with no move listed, with the control path's own, and with
a command word waiting. -/
theorem witness_readDone :
    (readS1 20).sourceMayIssue
    ∧ (let s : State := readEndedS1 20 [];
      s.lifeState = .ready ∧ s.inRead = false ∧ s.getSuspended = true ∧ s.held = none ∧ s.controlPathIsNext []
        ∧ s.writePos.toInt ≤ s.gWpos.toInt ∧ 0 ≤ s.gWlen.toInt
        ∧ (s.gWpos.toInt - s.writePos.toInt) * s.bytesPerSample < 2 ^ 32
        ∧ s.writePos.toInt + s.writeLen.toInt ≤ posMax)
    ∧ State.controlPathIsNext (readEndedS1 20 [.control, .engine]) [.engine]
    ∧ State.inputs (readEndedS1 20 [issueMove 0x07]) = [issueMove 0x07] :=
  ⟨by decide, by decide, .inr rfl, rfl⟩

theorem witness_readDone_windowInvariant (moves : List Move) : (readEndedS1 20 moves).windowInvariant :=
  windowInvariant_of (show (readEndedS1 20 []).windowBounds by decide) (.inl rfl) rfl

theorem witness_nextGetInSequence :
    let s : State := { windowS1 with res1 := 16, arg0 := 32, arg1 := 16 }
    (s.getPasses ∧ s.betweenCommands ∧ s.nextExpected.toInt ≠ -1 ∧ s.writePos.toInt ≤ s.gWpos.toInt
      ∧ s.gWpos.toInt ≤ s.writePos.toInt + s.writeLen.toInt ∧ 0 ≤ s.gWlen.toInt
      ∧ s.res1.toInt = min s.gWlen.toInt (s.writePos.toInt + s.writeLen.toInt - s.gWpos.toInt)
      ∧ s.arg0.toInt = s.gWpos.toInt + s.res1.toInt)
    ∧ s.windowInvariant ∧ ∃ t, exec .get s = .next t ∧ t.inRead = true :=
  ⟨by decide, windowInvariant_of (by decide) (by decide) rfl, _, rfl, by decide⟩

/-! ### DISCARD, FLUSH, APPEND, UNDO, SCOPY -/

theorem witness_discard :
    (let s : State := { windowS1 with arg0 := -1 }; s.hostMayIssue ∧ s.arg0.toInt < 0)
    ∧ (0 ≤ windowS1.arg0.toInt ∧ windowS1.arg0.toInt ≤ windowS1.writePos.toInt)
    ∧ (let s : State := { setupS1 with arg0 := 1 };
      s.writePos.toInt < s.arg0.toInt ∧ s.bytesPerSample ≠ 1
      ∧ ((0 : Nat) : Int) = min (s.arg0.toInt - s.writePos.toInt) s.writeLen.toInt)
    ∧ (let s : State := { busyS1 with arg0 := 100 };
      s.writePos.toInt < s.arg0.toInt
      ∧ ((32 : Nat) : Int) = min (s.arg0.toInt - s.writePos.toInt) s.writeLen.toInt ∧ s.queue ≠ [])
    ∧ (let s : State := { windowS1 with wc := 0, arg0 := 7 };
      s.writePos.toInt < s.arg0.toInt ∧ s.bytesPerSample = 1
      ∧ ((6 : Nat) : Int) = min (s.arg0.toInt - s.writePos.toInt) s.writeLen.toInt
        - min (s.arg0.toInt - s.writePos.toInt) s.writeLen.toInt % 2
      ∧ s.queue = [] ∧ s.writePos.toInt + 6 ≤ posMax) := by decide

theorem witness_discard_windowInvariant : windowS1.windowInvariant ∧ busyS1.windowInvariant :=
  ⟨windowInvariant_of (by decide) (by decide) rfl, windowInvariant_of (by decide) (by decide) rfl⟩

theorem witness_flush : windowS1.hostMayIssue := by decide

theorem witness_drain :
    let s : State := { readV [] zeroHeader with queue := [jobOf rampFrame], held := some .drain }
    s.lifeState = .ready ∧ s.held = some .drain ∧ s.inputs = [] := by decide

theorem witness_append :
    (let s : State := { readS1 16 with arg0 := -1 }; s.sourceMayIssue ∧ s.arg0.toInt < 0)
    ∧ (let s : State := { readS1 3 with arg0 := 61 };
      0 ≤ s.arg0.toInt ∧ s.writeLen.toInt + s.arg0.toInt ≤ s.capacity ∧ s.windowEnd % 8 ≠ 0)
    ∧ (let s : State := { readS1 12 with arg0 := 52, queue := [jobOf rampFrame] };
      s.writeLen.toInt + s.arg0.toInt ≤ s.capacity ∧ s.windowEnd % 8 = 0
      ∧ ¬ s.noHazard s.windowEnd.toNat (s.windowEnd + s.arg0.toInt * s.bytesPerSample).toNat)
    ∧ (let s : State := { readS1 16 with arg0 := 48, queue := [jobOf rampFrame] };
      s.writeLen.toInt + s.arg0.toInt ≤ s.capacity ∧ s.windowEnd % 8 = 0
      ∧ s.noHazard s.windowEnd.toNat (s.windowEnd + s.arg0.toInt * s.bytesPerSample).toNat) := by decide

theorem witness_append_windowInvariant : (readS1 16).windowInvariant :=
  windowInvariant_of (by decide) (by decide) rfl

/-- The window of V-SB-6 with STORAGE of 64 bytes: APPEND of 8 samples keeps the last `32 - 28` or `31 - 28`. -/
def tightS1 (len : Word) : State := { readS1 len with sizeBytes := 64, readCursor := 30, arg0 := 8 }

/-- V-FT-8, V-SB-6, the same with a job pending, and a retained length that is not aligned. -/
theorem witness_appendCompacts :
    (let s : State := { readS1 0 with arg0 := 65 };
      s.sourceMayIssue ∧ s.queue = [] ∧ 0 ≤ s.arg0.toInt ∧ (s.capacity : Int) < s.writeLen.toInt + s.arg0.toInt
      ∧ ((0 : Nat) : Int) = s.readCursor.toInt - s.readCursor.toInt % s.granularity
      ∧ (s.capacity : Int) < s.writeLen.toInt - (0 : Nat) + s.arg0.toInt)
    ∧ (let s : State := tightS1 32;
      s.sourceMayIssue ∧ s.queue = [] ∧ 0 ≤ s.arg0.toInt ∧ (s.capacity : Int) < s.writeLen.toInt + s.arg0.toInt
      ∧ ((28 : Nat) : Int) = s.readCursor.toInt - s.readCursor.toInt % s.granularity
      ∧ s.writeLen.toInt - (28 : Nat) + s.arg0.toInt ≤ s.capacity
      ∧ (s.writeLen.toInt - (28 : Nat)) * s.bytesPerSample % 8 = 0)
    ∧ (let s : State := { tightS1 32 with queue := [jobOf rampFrame] }; 28 ≠ 0 ∧ s.queue ≠ [])
    ∧ (let s : State := tightS1 31;
      s.sourceMayIssue ∧ s.queue = [] ∧ (s.capacity : Int) < s.writeLen.toInt + s.arg0.toInt
      ∧ ((28 : Nat) : Int) = s.readCursor.toInt - s.readCursor.toInt % s.granularity
      ∧ s.writeLen.toInt - (28 : Nat) + s.arg0.toInt ≤ s.capacity
      ∧ (s.writeLen.toInt - (28 : Nat)) * s.bytesPerSample % 8 ≠ 0) := by decide

theorem witness_appendCompacts_windowInvariant :
    State.windowInvariant { readS1 0 with arg0 := 65 } ∧ (tightS1 32).windowInvariant ∧ (tightS1 31).windowInvariant
    ∧ State.windowInvariant { tightS1 32 with queue := [jobOf rampFrame] } :=
  ⟨windowInvariant_of (by decide) (by decide) rfl, windowInvariant_of (by decide) (by decide) rfl,
    windowInvariant_of (by decide) (by decide) rfl, windowInvariant_of (by decide) (by decide) rfl⟩

/-- At once, and after what the compaction waited for. -/
theorem witness_appendReturnsAlignedOffsets :
    (let s : State := { readS1 16 with arg0 := 8 };
      (s.sourceMayIssue ∧ s.held = none) ∧ s.windowInvariant
      ∧ ∃ t, exec .append s = .next t ∧ t.lifeState = .ready ∧ t.held = none)
    ∧ (let s : State := { tightS1 32 with held := some (.append 8) };
      (s.held = some (.append 8) ∧ s.windowInvariant) ∧ ∃ t, step s = .next t ∧ t.lifeState = .ready ∧ t.held = none) :=
  ⟨⟨by decide, windowInvariant_of (by decide) (by decide) rfl, _, rfl, by decide⟩,
    ⟨rfl, .inr ⟨by decide, nofun, fun _ => rfl, nofun, fun w h => by cases h; decide⟩⟩, _, rfl, by decide⟩

theorem witness_undo :
    (let s : State := { readS1 16 with arg0 := -1 }; s.sourceMayIssue ∧ s.arg0.toInt < 0)
    ∧ (let s : State := { readS1 16 with arg0 := 17 }; 0 ≤ s.arg0.toInt ∧ s.writeLen.toInt < s.arg0.toInt)
    ∧ (let s : State := { readS1 16 with arg0 := 16 }; 0 ≤ s.arg0.toInt ∧ s.arg0.toInt ≤ s.writeLen.toInt) := by decide

theorem witness_scopy :
    (let s : State := { readS1 16 with arg2 := -1 }; s.sourceMayIssue ∧ s.arg2.toInt < 0)
    ∧ (let s : State := { readS1 16 with arg0 := 1, arg2 := 32 }; 0 ≤ s.arg2.toInt ∧ s.windowEnd < s.arg0.toNat + s.arg2.toInt)
    ∧ (let s : State := { readS1 32 with arg0 := 31, arg2 := 1, queue := [jobOf rampFrame] };
      s.arg0.toNat + s.arg2.toInt ≤ s.windowEnd ∧ ¬ s.noHazard s.arg0.toNat (s.arg0.toNat + s.arg2.toInt.toNat))
    ∧ (let s : State := { readS1 32 with arg0 := 32, arg2 := 1, queue := [jobOf rampFrame] };
      s.noHazard s.arg0.toNat (s.arg0.toNat + s.arg2.toInt.toNat) ∧ s.arg2.toInt ≠ 0
      ∧ s.stream.length < s.arg1.toNat + s.arg2.toInt)
    ∧ (let s : State := { readS1 16 with arg0 := 31, arg1 := 5, arg2 := 1, media := [(1, ⟨[0, 0, 0, 1, 0, 2], [], .external⟩)] };
      s.arg0.toNat + s.arg2.toInt ≤ s.windowEnd ∧ s.noHazard s.arg0.toNat (s.arg0.toNat + s.arg2.toInt.toNat)
      ∧ s.arg1.toNat + s.arg2.toInt ≤ s.stream.length)
    ∧ (readS1 16).arg2.toInt = 0 := by decide

theorem witness_scopy_windowInvariant : (readS1 16).windowInvariant ∧ (readS1 32).windowInvariant :=
  ⟨windowInvariant_of (by decide) (by decide) rfl, windowInvariant_of (by decide) (by decide) rfl⟩

/-! ### The VADPCM unit -/

/-- VOPEN of a mono source of order 2 with one predictor, in version 1 (V-VA-13). -/
def openingV (header : List Byte) : State := { setupV [] header with arg0 := 0x00010012, arg1 := 160 }

/-- With and without a pending job. -/
theorem witness_vopen :
    (openingV rampHeader).vopenPasses 2 1 1 0 ∧ (openingV rampHeader).queue = []
    ∧ State.vopenPasses { openingV rampHeader with queue := [jobOf rampFrame] } 2 1 1 0 := by decide

/-- The checks of the config word: a reserved bit (V-EN-7), order 0 and 9, no predictor and 17, and a version the instance
does not accept. -/
theorem witness_vopenChecks_config :
    setupS1.hostMayIssue
    ∧ firstFailing (State.vopenChecks { setupS1 with arg0 := 0x00010800 }) ⟨.config, 0x00010800, 0⟩
    ∧ firstFailing (State.vopenChecks { setupS1 with arg0 := 0x00010010 }) ⟨.config, 0, 8⟩
    ∧ firstFailing (State.vopenChecks { setupS1 with arg0 := 0x00010019 }) ⟨.config, 9, 8⟩
    ∧ firstFailing (State.vopenChecks { setupS1 with arg0 := 0x00010002 }) ⟨.config, 0, 16⟩
    ∧ firstFailing (State.vopenChecks { setupS1 with arg0 := 0x00010112 }) ⟨.config, 17, 16⟩
    ∧ firstFailing (State.vopenChecks { setupS1 with arg0 := 0x00020012 }) ⟨.config, 2, 0⟩ := by
  refine ⟨by decide, ?_, ?_, ?_, ?_, ?_, ?_⟩ <;>
    repeat (first | exact fails_first (by decide) | refine fails_later (by decide) ?_)

/-- A negative length, the width and the source not set, a buffer that is not flushed. -/
theorem witness_vopenChecks_state :
    (openingV rampHeader).hostMayIssue
    ∧ firstFailing (State.vopenChecks { openingV rampHeader with arg1 := -1 }) ⟨.badArg, -1, 1⟩
    ∧ firstFailing (State.vopenChecks { openingV rampHeader with widthSet := false }) ⟨.notConfigured, 0, 0⟩
    ∧ firstFailing (State.vopenChecks { openingV rampHeader with sourceSet := false }) ⟨.notConfigured, 1, 0⟩
    ∧ firstFailing (State.vopenChecks { openingV rampHeader with writeLen := 4, nextExpected := 4 })
      ⟨.notFlushed, 4, 4⟩ := by
  refine ⟨by decide, ?_, ?_, ?_, ?_⟩ <;>
    repeat (first | exact fails_first (by decide) | refine fails_later (by decide) ?_)

/-- The width (V-FT-20), the state block's size (V-FT-19), and a HEADER too short for the codebook, the entropy contexts,
the skip count (V-FT-22) and the skip table. -/
theorem witness_vopenChecks_header :
    firstFailing (State.vopenChecks { openingV rampHeader with wc := 2 }) ⟨.config, 2, 1⟩
    ∧ firstFailing (State.vopenChecks { openingV rampHeader with stateSize := 32 }) ⟨.stateSize, 32, 48⟩
    ∧ firstFailing (openingV (List.replicate 31 0)).vopenChecks ⟨.config, 32, 31⟩
    ∧ firstFailing (State.vopenChecks { openingV (List.replicate 103 0) with arg0 := 0x00010412 }) ⟨.config, 104, 103⟩
    ∧ firstFailing (openingV (List.replicate 35 0)).vopenChecks ⟨.config, 32, 35⟩
    ∧ firstFailing (openingV (List.replicate 35 0 ++ [1] ++ List.replicate 11 0)).vopenChecks ⟨.config, 48, 47⟩ := by
  refine ⟨?_, ?_, ?_, ?_, ?_, ?_⟩ <;>
    repeat (first | exact fails_first (by decide) | refine fails_later (by decide) ?_)

theorem witness_vseekZero :
    (let s : State := { readV [] rampHeader with arg0 := -1 }; s.sourceMayIssue ∧ s.arg0.toInt < 0)
    ∧ (let s : State := readS1 0; s.sourceMayIssue ∧ 0 ≤ s.arg0.toInt ∧ s.vOpen = false)
    ∧ (retiringV.sourceMayIssue ∧ 0 ≤ retiringV.arg0.toInt ∧ retiringV.vOpen = true ∧ retiringV.queue ≠ [])
    ∧ (let s : State := readV [] rampHeader; s.arg0.toInt = 0 ∧ s.vOpen = true ∧ s.queue = []) := by decide

/-- No entry; an entry that matches; an entry off the frame grid. -/
theorem witness_vseekEntry :
    (let s : State := { readV [] rampHeader with arg0 := 48 };
      s.sourceMayIssue ∧ 0 < s.arg0.toInt ∧ s.vOpen = true ∧ s.queue = [] ∧ s.skipTableFits
      ∧ ∀ e < s.vSkipCount.toNat, ¬ s.skipMatches e s.arg0.toInt)
    ∧ (seekingV.sourceMayIssue ∧ 0 < seekingV.arg0.toInt ∧ seekingV.skipTableFits ∧ 0 < seekingV.vSkipCount.toNat
      ∧ seekingV.skipMatches 0 seekingV.arg0.toInt ∧ (∀ e' < 0, ¬ seekingV.skipMatches e' seekingV.arg0.toInt)
      ∧ seekingV.arg0.toInt % 16 = 0)
    ∧ (let s : State := { readV [] (List.replicate 32 0 ++ [0, 0, 0, 1] ++ [0, 0, 0, 33] ++ List.replicate 8 0) with
        vSkipCount := 1
        arg0 := 33 };
      s.skipTableFits ∧ s.skipMatches 0 s.arg0.toInt ∧ s.arg0.toInt % 16 ≠ 0) := by decide

/-- STORAGE [0, 32) belongs to a pending job; the staged frame at 23 and the raw stream are RAMP's. -/
def stagingV (stream : List Byte) : State := { readV stream rampHeader with arg0 := 23, arg1 := 1 }

/-- VSTAGE's checks: negative frames, a closed unit, DESYNC (V-FT-16) and DESYNC at a negative pos, a destination outside
the window, tables that are not built (V-HU-11), a negative position that is V_DEC_POS, an end beyond POS_MAX. -/
theorem witness_vstageChecks :
    firstFailing (State.vstageChecks { stagingV rampFrame with arg1 := -1 }) ⟨.badArg, -1, 1⟩
    ∧ firstFailing (State.vstageChecks { stagingV rampFrame with vOpen := false, arg2 := 0x7FFFFFF0 }) ⟨.notConfigured, 2, 0⟩
    ∧ firstFailing (State.vstageChecks { stagingV rampFrame with arg2 := 16 }) ⟨.desync, 16, 0⟩
    ∧ firstFailing (State.vstageChecks { stagingV rampFrame with arg2 := -16 }) ⟨.desync, -16, 0⟩
    ∧ firstFailing (State.vstageChecks { stagingV rampFrame with arg0 := 24 }) ⟨.badArg, 24, 9⟩
    ∧ firstFailing (State.vstageChecks { stagingV rampFrame with vEntropy := true }) ⟨.notConfigured, 3, 0⟩
    ∧ firstFailing (State.vstageChecks { stagingV rampFrame with arg2 := -16, vDecPos := -16 }) ⟨.badArg, -16, 0⟩
    ∧ firstFailing (State.vstageChecks { stagingV rampFrame with arg2 := 0x7FFFFFF0, vDecPos := 0x7FFFFFF0 })
      ⟨.badArg, 0x7FFFFFF0, 16⟩ := by
  refine ⟨?_, ?_, ?_, ?_, ?_, ?_, ?_, ?_⟩ <;>
    repeat (first | exact fails_first (by decide) | refine fails_later (by decide) ?_)

theorem vstage_allPass {s : State}
    (h : 0 ≤ s.arg1.toInt ∧ s.vOpen = true ∧ s.arg2.toInt = s.vDecPos.toInt ∧ s.arg0.toNat + s.stagedBytes ≤ s.windowEnd
      ∧ (s.vEntropy = true → s.hBuilt = true) ∧ 0 ≤ s.arg2.toInt ∧ s.arg2.toInt + 16 * s.arg1.toInt ≤ posMax) :
    allPass s.vstageChecks := by
  obtain ⟨h1, h2, h3, h4, h5, h6, h7⟩ := h
  exact allPass_cons (by omega) (allPass_cons (by simp [h2]) (allPass_cons (by omega) (allPass_cons (by omega)
    (allPass_cons (fun h => by simp [h5 h.1] at h) (allPass_cons (by omega) (allPass_cons (by omega) allPass_nil))))))

/-- A frame whose end is POS_MAX itself passes. -/
theorem witness_vstage_posMax :
    allPass (State.vstageChecks { stagingV rampFrame with arg2 := 0x7FFFFFEF, vDecPos := 0x7FFFFFEF }) :=
  vstage_allPass (by decide)

/-- A pending job at the destination, a stream one byte short, a stream just long enough, and no frame at all. -/
theorem witness_vstage :
    (stagingV rampFrame).sourceMayIssue ∧ allPass (stagingV rampFrame).vstageChecks ∧ (stagingV rampFrame).vEntropy = false
    ∧ ¬ State.noHazard { stagingV rampFrame with queue := [jobOf rampFrame] } 23 (23 + 9)
    ∧ (stagingV rampFrame).noHazard 23 (23 + (stagingV rampFrame).stagedBytes)
    ∧ (stagingV rampFrame).vByteCursor.toNat + (stagingV rampFrame).stagedBytes ≤ (stagingV rampFrame).stream.length
    ∧ (let s : State := stagingV (List.replicate 8 0);
      s.stagedBytes ≠ 0 ∧ s.stream.length < s.vByteCursor.toNat + s.stagedBytes)
    ∧ (let s : State := { stagingV [] with arg1 := 0 }; s.stagedBytes = 0) :=
  ⟨by decide, vstage_allPass (by decide), by decide, by decide, by decide, by decide, by decide, by decide⟩

theorem witness_vstage_windowInvariant : (stagingV rampFrame).windowInvariant :=
  windowInvariant_of (by decide) (by decide) rfl

/-- VJOB's checks: negative frames, a closed unit, an output and an input outside their bounds. -/
theorem witness_vjobChecks :
    firstFailing (State.vjobChecks { readV [] rampHeader with arg1 := -1 } 0 0) ⟨.badArg, -1, 1⟩
    ∧ firstFailing (State.vjobChecks { readV [] rampHeader with vOpen := false, arg1 := 1 } 32 9) ⟨.notConfigured, 2, 0⟩
    ∧ firstFailing (State.vjobChecks { readV [] rampHeader with arg0 := 1, arg1 := 1 } 32 9) ⟨.badArg, 1, 32⟩
    ∧ firstFailing (State.vjobChecks { readV [] rampHeader with arg1 := 1, arg2 := 24 } 32 9) ⟨.badArg, 24, 9⟩ := by
  refine ⟨?_, ?_, ?_, ?_⟩ <;>
    repeat (first | exact fails_first (by decide) | refine fails_later (by decide) ?_)

/-- A pending job at the input, nothing staged, room in the queue, and no room. -/
theorem witness_vjob :
    (let s : State := { readV rampFrame rampHeader with arg1 := 1, arg2 := 23 };
      s.sourceMayIssue ∧ 32 = s.arg1.toInt.toNat * 16 * s.vChannels.toNat * 2 ∧ 9 = s.arg1.toInt.toNat * 9 * s.vChannels.toNat
      ∧ s.noHazard s.arg2.toNat (s.arg2.toNat + 9) ∧ ∃ k < 9, Memory.read s.storage (s.arg2.toNat + k) = none)
    ∧ allPass (State.vjobChecks { readV rampFrame rampHeader with arg1 := 1, arg2 := 23 } 32 9)
    ∧ ¬ State.noHazard { readV rampFrame rampHeader with queue := [jobOf rampFrame] } 23 (23 + 9)
    ∧ (let s : State := { readV rampFrame rampHeader with arg1 := 1, arg2 := 23, storage := cellsFrom 23 rampFrame };
      rampFrame.length = 9 ∧ ∀ k < 9, Memory.read s.storage (s.arg2.toNat + k) = rampFrame[k]?)
    ∧ ([] : List Job).length < Config.queueDepth
    ∧ Config.queueDepth ≤ (List.replicate Config.queueDepth (⟨.vjob, 64, 96, 64, 1, []⟩ : Job)).length
    ∧ ∀ j ∈ List.replicate Config.queueDepth (⟨.vjob, 64, 96, 64, 1, []⟩ : Job), ¬ max j.lo 23 < min j.hi (23 + 9) := by
  refine ⟨by decide, allPass_cons (by decide) (allPass_cons (by decide) (allPass_cons (by decide) (allPass_cons (by decide)
    allPass_nil))), by decide, by decide, Nat.succ_pos _, by simp, ?_⟩
  intro j hj
  rw [List.eq_of_mem_replicate hj]
  decide

theorem witness_zeroCodebookJob :
    let s : State := { retiringV with inputs := [.engine] }
    s.lifeState ≠ .faulted ∧ s.inputs = .engine :: [] ∧ s.queue = [jobOf rampFrame]
    ∧ 1 ≤ (jobOf rampFrame).frames ∧ 1 ≤ s.vOrder.toNat ∧ s.vOrder.toNat ≤ 8
    ∧ (jobOf rampFrame).input.length = (jobOf rampFrame).frames * 9 * s.vChannels.toNat
    ∧ (jobOf rampFrame).dst + (jobOf rampFrame).frames * 32 * s.vChannels.toNat ≤ s.storageSize
    ∧ s.vPcount.toNat * s.vOrder.toNat * 16 ≤ s.header.length
    ∧ (s.header.take (s.vPcount.toNat * s.vOrder.toNat * 16)).all (· == 0) = true
    ∧ ∀ f < (jobOf rampFrame).frames, ∀ c < s.vChannels.toNat,
        framePredictor (jobFrame s (jobOf rampFrame) f c) < s.vPcount.toNat := by decide

theorem witness_retirement : ∃ t, engineStep retiringV = .next t ∧ t.lifeState ≠ .faulted ∧ t.queue = [] :=
  ⟨_, rfl, by decide +kernel⟩

/-- Its head, and a head with no frame. -/
theorem witness_retirement_head :
    (∃ j rest, retiringV.queue = j :: rest ∧ j.frames ≠ 0)
    ∧ (let s : State := { retiringV with queue := [⟨.vjob, 0, 0, 0, 0, []⟩] };
      ∃ j rest t, s.queue = j :: rest ∧ j.frames = 0 ∧ engineStep s = .next t ∧ t.lifeState ≠ .faulted)
    ∧ (let s : State := { retiringV with queue := [] }; s.lifeState ≠ .faulted ∧ s.queue = []
      ∧ ∃ t, engineStep s = .next t) :=
  ⟨⟨_, _, rfl, by decide⟩, ⟨_, _, _, rfl, rfl, rfl, by decide +kernel⟩, by decide, rfl, _, rfl⟩

theorem witness_badPredictor :
    let j : Job := jobOf (1 :: List.replicate 8 0)
    let s : State := { retiringV with queue := [j] }
    s.lifeState ≠ .faulted ∧ s.queue = [j]
    ∧ s.vPcount.toNat * s.vOrder.toNat * 16 ≤ s.header.length ∧ 0 < j.frames ∧ 0 < s.vChannels.toNat
    ∧ s.vPcount.toNat ≤ framePredictor (jobFrame s j 0 0)
    ∧ ∀ f' c', ¬ f' * s.vChannels.toNat + c' < 0 * s.vChannels.toNat + 0 :=
  ⟨by decide, by decide, by decide, by decide, by decide, by decide, fun _ _ => Nat.not_lt_zero _⟩

theorem witness_zeroCodebook : ∀ row ∈ [List.replicate 8 (0 : Int), List.replicate 8 0], ∀ v ∈ row, v = 0 := by decide

theorem witness_causal : [(1 : Int), 2, 3].take (1 + 1) = [1, 2, 4].take (1 + 1) ∧ 1 < [(1 : Int), 2, 3].length := by
  decide

/-! ### The Huffman unit -/

/-- The completed HBUILD of V-HU-1. -/
theorem witness_hbuild :
    let s : State := setupH [] identContext identContext identContext
    s.hostMayIssue ∧ ∃ t, exec .hbuild s = .next t ∧ t.lifeState = .ready :=
  ⟨by decide, exists_next (p := fun t => t.lifeState = .ready) (by decide +kernel)⟩

/-- Prefix-freeness as one finite question. -/
theorem prefixFree_of {ctx : List Byte}
    (h : ∀ a < 16, ∀ b < 16, a = b ∨ codeLength ctx a = 0 ∨ codeLength ctx b < codeLength ctx a
      ∨ codeValue ctx b / 2 ^ (codeLength ctx b - codeLength ctx a) ≠ codeValue ctx a) : prefixFree ctx := by
  intro a ha b hb hab h0 hle
  rcases h a ha b hb with h | h | h | h
  · exact absurd h hab
  · exact absurd h h0
  · omega
  · exact h

/-- A context with two codes of length 1 and one of length 2 (a Kraft sum of 320). -/
def overfullContext : List Byte := 0x11 :: 0x20 :: List.replicate 6 0 ++ 0 :: 1 :: List.replicate 14 0

/-- The context of V-HU-5, with one code of length 1 (a Kraft sum of 128). -/
def halfContext : List Byte := 0x10 :: List.replicate 23 0

/-- The state whose three contexts have a Kraft sum of 256 (IDENT), above it and below it. -/
def kraftH : State := setupH [] identContext overfullContext halfContext

theorem witness_kraft_equal :
    kraftH.codebookEnd + 24 * 2 + 24 ≤ kraftH.header.length ∧ codesFit (kraftH.contextBytes 0)
    ∧ prefixFree (kraftH.contextBytes 0) ∧ kraftSum (kraftH.contextBytes 0) = 256 := by
  refine ⟨by decide +kernel, by unfold codesFit; decide +kernel, prefixFree_of (by decide +kernel), by decide +kernel⟩

theorem witness_kraft_above : codesFit (kraftH.contextBytes 1) ∧ 256 < kraftSum (kraftH.contextBytes 1) :=
  ⟨by unfold codesFit; decide +kernel, by decide +kernel⟩

theorem witness_kraft_below :
    codesFit (kraftH.contextBytes 2) ∧ prefixFree (kraftH.contextBytes 2) ∧ kraftSum (kraftH.contextBytes 2) < 256 :=
  ⟨by unfold codesFit; decide +kernel, prefixFree_of (by decide +kernel), by decide +kernel⟩

theorem witness_builtContext :
    let s : State := setupH [] identContext identContext identContext
    s.codebookEnd + 24 * 0 + 24 ≤ s.header.length ∧ buildContext s 0 = .ok identTable := by decide +kernel

theorem witness_hbuildClauses :
    (setupS1.hostMayIssue ∧ setupS1.vOpen = false)
    ∧ (let s : State := { setupV [] zeroHeader with vOpen := true }; s.hostMayIssue ∧ s.vOpen = true ∧ s.vEntropy = false)
    ∧ (let s : State := setupH [] identContext identContext identContext;
      s.hostMayIssue ∧ s.vOpen = true ∧ s.vEntropy = true ∧ buildContext s 1 = .ok identTable
      ∧ buildContext s 2 = .ok identTable) := by decide +kernel

/-- HDECODE's checks: a closed unit, no entropy coding, tables not built (V-HU-11), and a destination outside the window. -/
theorem witness_hdecodeChecks :
    decodeH.sourceMayIssue
    ∧ firstFailing (State.hdecodeChecks { decodeH with vOpen := false }) ⟨.notConfigured, 2, 0⟩
    ∧ firstFailing (State.hdecodeChecks { decodeH with vEntropy := false }) ⟨.config, 0, 1⟩
    ∧ firstFailing (State.hdecodeChecks { decodeH with hBuilt := false }) ⟨.notConfigured, 3, 0⟩
    ∧ firstFailing (State.hdecodeChecks { decodeH with arg0 := 24 }) ⟨.badArg, 24, 9⟩
    ∧ allPass (State.hdecodeChecks { decodeH with arg0 := 23, queue := [jobOf rampFrame] })
    ∧ ¬ State.noHazard { decodeH with queue := [jobOf rampFrame] } 23 (23 + 9) := by
  refine ⟨by decide, ?_, ?_, ?_, ?_, ?_, by decide⟩
  rotate_right
  · exact allPass_cons (by decide) (allPass_cons (by decide) (allPass_cons (by decide) (allPass_cons (by decide) allPass_nil)))
  all_goals
    repeat (first | exact fails_first (by decide) | refine fails_later (by decide) ?_)

/-- The contexts of V-HU-7 (a length of 9) and V-HU-6 (an overlap), and one with a code too wide for its length. -/
def longContext : List Byte := 0x90 :: List.replicate 23 0
def wideContext : List Byte := 0x10 :: List.replicate 7 0 ++ [2] ++ List.replicate 15 0
def overlapContext : List Byte := 0x12 :: List.replicate 7 0 ++ [0, 1] ++ List.replicate 14 0

/-- A state with each of them. -/
def malformedH : State := setupH [] longContext wideContext overlapContext

theorem witness_malformed :
    malformedH.codebookEnd + 24 * 2 + 24 ≤ malformedH.header.length
    ∧ (wellFormedBefore (malformedH.contextBytes 0) 0 ∧ 8 < codeLength (malformedH.contextBytes 0) 0)
    ∧ (wellFormedBefore (malformedH.contextBytes 1) 0 ∧ codeLength (malformedH.contextBytes 1) 0 ≤ 8
      ∧ codeLength (malformedH.contextBytes 1) 0 ≠ 0
      ∧ 2 ^ codeLength (malformedH.contextBytes 1) 0 ≤ codeValue (malformedH.contextBytes 1) 0)
    ∧ (wellFormedBefore (malformedH.contextBytes 2) 1 ∧ codeLength (malformedH.contextBytes 2) 1 ≤ 8
      ∧ codeValue (malformedH.contextBytes 2) 1 < 2 ^ codeLength (malformedH.contextBytes 2) 1
      ∧ ∃ b < 1, ∃ w < 256, codeCovers (malformedH.contextBytes 2) 1 w ∧ codeCovers (malformedH.contextBytes 2) b w) := by
  refine ⟨by decide +kernel, ⟨fun _ h => absurd h (Nat.not_lt_zero _), by decide +kernel⟩,
    ⟨fun _ h => absurd h (Nat.not_lt_zero _), by decide +kernel⟩, ?_, by decide +kernel, by decide +kernel,
    0, by decide, 64, by decide, by decide +kernel⟩
  intro a ha
  rw [Nat.lt_one_iff.mp ha]
  exact ⟨by decide +kernel, fun b hb => absurd hb (Nat.not_lt_zero _)⟩

theorem witness_hbuildFaults :
    ((setupH [] halfContext identContext identContext).hostMayIssue
      ∧ buildContext (setupH [] halfContext identContext identContext) 0 = .error ⟨.huffIncomplete, 0, 128⟩)
    ∧ (let s : State := setupH [] identContext halfContext identContext;
      buildContext s 0 = .ok identTable ∧ buildContext s 1 = .error ⟨.huffIncomplete, 1, 128⟩)
    ∧ (let s : State := setupH [] identContext identContext halfContext;
      buildContext s 0 = .ok identTable ∧ buildContext s 1 = .ok identTable
      ∧ buildContext s 2 = .error ⟨.huffIncomplete, 2, 128⟩) := by decide +kernel

theorem witness_hdecodePasses : decodeH.hdecodePasses ∧ shortH.hdecodePasses :=
  ⟨⟨by decide, windowInvariant_of (by decide) (by decide) rfl, by decide⟩,
    by decide, windowInvariant_of (by decide) (by decide) rfl, by decide⟩

theorem witness_hdecode :
    let p : Nat → Nat := fun i => 4 * i
    p 0 = decodeH.vBitPos.toNat
    ∧ (∀ i < 18, p (i + 1) = p i + (lowNibble (decodeH.blockEntry i (p i))).toNat)
    ∧ p 18 ≤ 8 * decodeH.stream.length ∧ p 18 < 2 ^ 32 := by decide +kernel

theorem witness_hdecodeEnd :
    let p : Nat → Nat := fun i => 4 * i
    p 0 = shortH.vBitPos.toNat ∧ 16 < 18
    ∧ (∀ i < 17, p (i + 1) = p i + (lowNibble (shortH.blockEntry i (p i))).toNat)
    ∧ (∀ i < 16, p (i + 1) ≤ 8 * shortH.stream.length) ∧ 8 * shortH.stream.length < p (16 + 1) := by decide +kernel

/-- The states before each block of a VSTAGE, ARG0 as it was. -/
def blockStates (s : State) : Nat → State
  | 0 => s
  | b + 1 => { after (exec .hdecode ((blockStates s b).atBlock s.arg0 b)) with arg0 := s.arg0 }

/-- VSTAGE of two frames in mono and of one in stereo, over a stream of `n` zero bytes (IDENT codes). -/
def monoH (n : Nat) : State := { readH (List.replicate n 0) with arg1 := 2 }
def stereoH (n : Nat) : State := { readH (List.replicate n 0) with arg1 := 1, vChannels := 2 }

theorem witness_vstageEntropy :
    ((monoH 18).sourceMayIssue ∧ (monoH 18).vEntropy = true ∧ 2 = (monoH 18).arg1.toInt.toNat * (monoH 18).vChannels.toNat
      ∧ (monoH 18).vByteCursor.toNat + (monoH 18).stagedBytes < 2 ^ 32)
    ∧ (2 = (stereoH 18).arg1.toInt.toNat * (stereoH 18).vChannels.toNat)
    ∧ (allPass (monoH 18).vstageChecks ∧ allPass (stereoH 18).vstageChecks) :=
  ⟨by decide, by decide, vstage_allPass (by decide), vstage_allPass (by decide)⟩

theorem witness_vstageEntropy_windowInvariant : (monoH 18).windowInvariant ∧ (stereoH 18).windowInvariant :=
  ⟨windowInvariant_of (by decide) (by decide) rfl, windowInvariant_of (by decide) (by decide) rfl⟩

/-- Both blocks of the frames are unpacked. -/
theorem witness_vstageEntropy_blocks :
    ∀ b < 2, exec .hdecode ((blockStates (monoH 18) b).atBlock (monoH 18).arg0 b)
        = .next ((blockStates (monoH 18) (b + 1)).atBlock (monoH 18).arg0 b)
      ∧ (blockStates (monoH 18) (b + 1)).arg0 = (monoH 18).arg0 ∧ (blockStates (monoH 18) (b + 1)).lifeState = .ready
  | 0, _ => ⟨next_of (by decide +kernel), rfl, by decide +kernel⟩
  | 1, _ => ⟨next_of (by decide +kernel), rfl, by decide +kernel⟩

/-- Both blocks, one of each channel, of a stereo frame. -/
theorem witness_vstageEntropy_stereoBlocks :
    ∀ b < 2, exec .hdecode ((blockStates (stereoH 18) b).atBlock (stereoH 18).arg0 b)
        = .next ((blockStates (stereoH 18) (b + 1)).atBlock (stereoH 18).arg0 b)
      ∧ (blockStates (stereoH 18) (b + 1)).arg0 = (stereoH 18).arg0
      ∧ (blockStates (stereoH 18) (b + 1)).lifeState = .ready
  | 0, _ => ⟨next_of (by decide +kernel), rfl, by decide +kernel⟩
  | 1, _ => ⟨next_of (by decide +kernel), rfl, by decide +kernel⟩

/-- The stream ends in the second block, or before the first. -/
theorem witness_vstageEntropy_fault :
    (∀ b < 1, exec .hdecode ((blockStates (monoH 9) b).atBlock (monoH 9).arg0 b)
        = .next ((blockStates (monoH 9) (b + 1)).atBlock (monoH 9).arg0 b)
      ∧ (blockStates (monoH 9) (b + 1)).arg0 = (monoH 9).arg0 ∧ (blockStates (monoH 9) (b + 1)).lifeState = .ready)
    ∧ 1 < (monoH 9).arg1.toInt.toNat * (monoH 9).vChannels.toNat
    ∧ (∃ v, exec .hdecode ((blockStates (monoH 9) 1).atBlock (monoH 9).arg0 1) = .next v ∧ v.lifeState = .faulted)
    ∧ ∃ v, exec .hdecode ((blockStates (monoH 0) 0).atBlock (monoH 0).arg0 0) = .next v ∧ v.lifeState = .faulted :=
  ⟨fun | 0, _ => ⟨next_of (by decide +kernel), rfl, by decide +kernel⟩, by decide,
    exists_next (p := fun t => t.lifeState = .faulted) (by decide +kernel), exists_next (p := fun t => t.lifeState = .faulted) (by decide +kernel)⟩

/-! ### Held commands -/

/-- A held command whose condition is met, outside a read and inside one, with no move and with the control path's. -/
theorem witness_heldCommands :
    (let s : State := { setupS1 with held := some (.setSource 2 0) };
      s.lifeState = .ready ∧ (s.inputs = [] ∧ ([] : List Move) = []) ∧ s.held = some (.setSource 2 0) ∧ s.queue = []
      ∧ s.inRead = false ∧ s.flushed = true ∧ (0 : Word).toNat % 16 = 0 ∧ (0 : Word).toNat ≤ s.stateReserved.toNat)
    ∧ (let s : State := { windowS1 with held := some (.discard (8 : Word).toInt), inputs := [.control] };
      s.inputs = .control :: [] ∧ s.held = some (.discard (8 : Word).toInt) ∧ s.queue = [] ∧ s.inRead = false
      ∧ 0 ≤ (8 : Word).toInt)
    ∧ (let s : State := { readS1 64 with readCursor := 32, held := some (.append (8 : Word).toInt) };
      s.held = some (.append (8 : Word).toInt) ∧ s.queue = [] ∧ s.inRead = true ∧ 0 ≤ (8 : Word).toInt
      ∧ (s.capacity : Int) < s.writeLen.toInt + (8 : Word).toInt)
    ∧ (let s : State := { readV [] rampHeader with held := some (.vseek (0 : Word).toInt) };
      s.held = some (.vseek (0 : Word).toInt) ∧ s.queue = [] ∧ s.inRead = true ∧ 0 ≤ (0 : Word).toInt ∧ s.vOpen = true)
    ∧ (let c : VConfig := ⟨2, 1, 1, false, 1, 160, 32, 0⟩;
      State.held { setupV [] rampHeader with held := some (.vopen c) } = some (.vopen c) ∧ c.skipBase < 2 ^ 32)
    ∧ State.held { readV [] rampHeader with held := some (.vjob (jobOf rampFrame)) } = some (.vjob (jobOf rampFrame)) := by
  decide

theorem witness_heldJob_hasRoom : (readV [] rampHeader).queue.length < Config.queueDepth := Nat.succ_pos _

/-! ### The sources, the invariants and the frames -/

theorem witness_rawSource :
    let s : State := { readS1 0 with rreqLen := 16, media := [(1, ⟨List.replicate 40 0, [], .raw 20⟩)] }
    (s.answeringRead ∧ s.inputs = [] ∧ s.boundMedia.agent = .raw 20 ∧ s.srcPhase = .start
      ∧ (16 : Int) = max 0 (min s.rreqLen.toInt ((20 : Nat) - s.rreqPos.toInt)) ∧ 0 ≤ s.rreqPos.toInt)
    ∧ (0 : Int) = max 0 (min s.rreqLen.toInt ((20 : Nat) - (20#32).toInt))
    ∧ (s.rreqPos.toInt * s.bytesPerSample < 2 ^ 32
      ∧ (16 : Int) * s.bytesPerSample < 2 ^ 32) := by decide

theorem witness_storageInvariant : setupS1.storageInvariant ∧ ∃ t, step setupS1 = .next t :=
  ⟨⟨by decide, nofun⟩, _, rfl⟩

theorem witness_windowInvariant : windowS1.windowInvariant ∧ ∃ t, step windowS1 = .next t :=
  ⟨windowInvariant_of (by decide) (by decide) rfl, _, rfl⟩

theorem witness_unitInvariant : retiringV.unitInvariant ∧ ∃ t, step retiringV = .next t :=
  ⟨by decide, _, rfl⟩

theorem witness_frame_registerCommands :
    (∃ t, exec .setWidth setupS1 = .next t) ∧ (∃ t, exec .get setupS1 = .next t) ∧ (∃ t, exec .drain setupS1 = .next t)
    ∧ (∃ t, exec .readDone (readS1 0) = .next t)
    ∧ (∃ t, exec .vopen { setupS1 with arg0 := 0x00010000 } = .next t)
    ∧ (∃ t, exec .vseek seekingV = .next t) ∧ (∃ t, exec .vjob (readV [] zeroHeader) = .next t)
    ∧ ∃ t, exec .hbuild setupS1 = .next t :=
  ⟨⟨_, rfl⟩, ⟨_, rfl⟩, ⟨_, rfl⟩, ⟨_, rfl⟩, ⟨_, rfl⟩, ⟨_, rfl⟩, ⟨_, rfl⟩, _, rfl⟩

theorem witness_frame_windowCommands :
    (∃ t, exec .append { readS1 16 with arg0 := 8 } = .next t) ∧ (∃ t, exec .undo { readS1 16 with arg0 := 8 } = .next t)
    ∧ (∃ t, exec .discard { windowS1 with arg0 := 8 } = .next t) ∧ ∃ t, exec .flush windowS1 = .next t :=
  ⟨⟨_, rfl⟩, ⟨_, rfl⟩, ⟨_, rfl⟩, _, rfl⟩

theorem witness_frame_storingCommands :
    (∃ t, exec .scopy (readS1 16) = .next t) ∧ (∃ t, exec .hdecode decodeH = .next t)
    ∧ ∃ t, exec .vstage { readV rampFrame rampHeader with arg0 := 23, arg1 := 1 } = .next t :=
  ⟨⟨_, rfl⟩, ⟨_, rfl⟩, _, rfl⟩

theorem witness_frame_lifecycleCommands :
    (∃ t, exec .init { State.reset with arg0 := 128 } = .next t) ∧ (∃ t, exec .close setupS1 = .next t)
    ∧ ∃ t, exec .setSource { setupS1 with arg0 := 2 } = .next t :=
  ⟨⟨_, rfl⟩, ⟨_, rfl⟩, _, rfl⟩

end Sys2Proof.Tests
end

section
/-! PROOF. No step stops the model but for a transform-coded source's turn (00_scope.md R5): each agent's move is
shown to answer a next state, and the one refusal is traced to the bound source. -/

namespace Sys2Proof.Machine

/-! ### The moves that always answer a next state -/

/-- A write of CMD answers a next state, be the word illegal or listed (60_exceptions.md R345). -/
theorem issueWord_next (w : Word) (s : State) : ∃ t, issueWord w s = .next t := by
  unfold issueWord
  split
  · exact ⟨_, rfl⟩
  · split
    · exact ⟨_, rfl⟩
    · exact exec_next _ s

theorem regWrite_next (offset : BitVec 8) (width : Nat) (value : Word) (s : State) :
    ∃ t, regWrite offset width value s = .next t := by
  unfold regWrite
  split
  · exact ⟨_, rfl⟩
  · split
    case h_1 => exact issueWord_next value s
    all_goals exact ⟨_, rfl⟩

theorem engineStep_next (s : State) : ∃ t, engineStep s = .next t := engineStepWith_next ownPredictor s

/-- A held command that goes on answers a next state: DRAIN has nothing left to do, and the rest of every other one
completes, is held again or faults. -/
theorem resumeHeld_next (h : Held) (s : State) : ∃ t, resumeHeld h s = .next t := by
  unfold resumeHeld
  cases h
  case drain => exact ⟨s, rfl⟩
  all_goals exact Exit.close_next _ _

/-! ### A source's turn -/

@[simp] theorem State.sayDone_ne_refused (s : State) : s.sayDone ≠ .refused := nofun

theorem State.rawTurn_ne_refused (s : State) (total : Nat) : s.rawTurn total ≠ .refused := by
  unfold State.rawTurn
  cases s.srcPhase
  case start => dsimp only; split <;> simp
  all_goals simp

theorem State.vsrcAppend_ne_refused (s : State) : s.vsrcAppend ≠ .refused := by
  unfold State.vsrcAppend
  split <;> simp

theorem State.vsrcTurn_ne_refused (s : State) : s.vsrcTurn ≠ .refused := by
  unfold State.vsrcTurn
  cases s.srcPhase
  case start =>
    dsimp only
    split
    · simp
    · exact s.vsrcAppend_ne_refused
  case seeked => exact s.vsrcAppend_ne_refused
  case issued => dsimp only; split <;> simp
  all_goals simp

/-- Of the agents only the transform-coded source has a turn that is refused (00_scope.md R5). -/
theorem State.sourceTurn_eq_refused_iff (s : State) :
    s.sourceTurn = .refused ↔ s.boundMedia.agent = .transform := by
  unfold State.sourceTurn
  cases s.boundMedia.agent with
  | external => exact ⟨nofun, nofun⟩
  | raw total => exact ⟨fun h => absurd h (s.rawTurn_ne_refused total), nofun⟩
  | vsrc => exact ⟨fun h => absurd h s.vsrcTurn_ne_refused, nofun⟩
  | transform => exact ⟨fun _ => rfl, fun _ => rfl⟩

/-- A turn that is taken answers a next state, or it is the refused turn. -/
theorem takeSourceTurn_cases (turn : SourceTurn) (s : State) :
    (∃ t, takeSourceTurn turn s = .next t)
    ∨ (turn = .refused ∧ takeSourceTurn turn s = .refused .transformCodedSource) := by
  cases turn with
  | issue i a0 a1 a2 after => exact .inl (exec_next i _)
  | outside => exact .inl ⟨s, rfl⟩
  | refused => exact .inr ⟨rfl, rfl⟩

/-! ### The control path's own step -/

/-- The control path turns to the source only while a read is outstanding (40_sample_buffer.md R182). -/
theorem State.inRead_of_controlWork_source {s : State} (h : s.controlWork = .source) : s.inRead = true := by
  by_contra hr
  unfold State.controlWork at h
  rw [if_neg hr] at h
  split at h
  · cases h
  · split at h
    · cases h
    · split at h <;> cases h

/-- What the control path's step answers where its `idle` alternative answers a next state: a next state, but for the
turn of a transform-coded source in an outstanding read. -/
theorem controlStep_cases {idle : State → Result} (hidle : ∀ s, ∃ t, idle s = .next t) (s : State) :
    (∃ t, controlStep idle s = .next t)
    ∨ (controlStep idle s = .refused .transformCodedSource ∧ s.inRead = true
        ∧ s.boundMedia.agent = .transform) := by
  unfold controlStep
  split
  next h _ =>
    split
    · exact .inl (resumeHeld_next h _)
    · exact .inl (hidle s)
  next => exact .inl (Exit.close_next _ _)
  next hwork =>
    rcases takeSourceTurn_cases s.sourceTurn s with hnext | ⟨hturn, hrefused⟩
    · exact .inl hnext
    · exact .inr ⟨hrefused, s.inRead_of_controlWork_source hwork, s.sourceTurn_eq_refused_iff.mp hturn⟩
  next => exact .inl (hidle s)

/-! ### The step -/

/-- Settles O52, by the first listed move: only a step of the control path can reach a source's turn. -/
theorem onlyTheTransformSourceIsRefused : Obligations.OnlyTheTransformSourceIsRefused := by
  unfold Obligations.OnlyTheTransformSourceIsRefused
  intro s
  cases hin : s.inputs with
  | nil =>
    rw [step_idle hin]
    exact controlStep_cases engineStep_next _
  | cons move rest =>
    cases move with
    | regWrite offset width value =>
      cases hw : s.writeWaits offset with
      | true =>
        rw [step_waits hin hw]
        exact controlStep_cases engineStep_next _
      | false =>
        rw [step_regWrite hin hw]
        exact .inl (regWrite_next offset width value _)
    | regRead offset width => exact .inl ⟨_, step_regRead hin⟩
    | consumerRead off n => exact .inl ⟨_, step_consumerRead hin⟩
    | engine =>
      rw [step_engine hin]
      exact .inl (engineStep_next _)
    | control =>
      rw [step_control hin]
      exact controlStep_cases (fun t => ⟨t, rfl⟩) _
    | powerOn => exact .inl ⟨_, step_powerOn hin⟩

end Sys2Proof.Machine
end

section
/-! PROOF. What a step can do to the block, said once: every next state is reached by a chain of effects, each one
update that a rule of the spec names. An invariant that every effect keeps is kept by every step. -/

namespace Sys2Proof.Machine

/-! ### The effects -/

/-- `s` with no command held. -/
def State.release (s : State) : State := { s with held := none }

/-- `s` with the registers that no invariant speaks of as `o` has them: the operands and results, the GET latches and
the read request, the source's registers, the VADPCM registers beside V_HIST and V_OPEN, and the outside world's
part. -/
def State.withPlain (s o : State) : State :=
  { s with
    widthSet := o.widthSet, sourceId := o.sourceId, sourceSet := o.sourceSet, stateSize := o.stateSize
    arg0 := o.arg0, arg1 := o.arg1, arg2 := o.arg2, arg3 := o.arg3, res0 := o.res0, res1 := o.res1
    gWpos := o.gWpos, gWlen := o.gWlen, gPhase := o.gPhase
    rreqPos := o.rreqPos, rreqLen := o.rreqLen, rreqSeek := o.rreqSeek
    vOrder := o.vOrder, vPcount := o.vPcount, vChannels := o.vChannels, vEntropy := o.vEntropy
    vVersion := o.vVersion, vLength := o.vLength, vDecPos := o.vDecPos, vByteCursor := o.vByteCursor
    vBitPos := o.vBitPos, vSkipBase := o.vSkipBase, vSkipCount := o.vSkipCount
    srcPhase := o.srcPhase, inputs := o.inputs, hostWord := o.hostWord, hostBytes := o.hostBytes
    freeTick := o.freeTick }

/-- One update of the block, with what its rule has checked by then. A command that may be held is held first and goes
on from there, be it at once, so that what it latched is known of it in the state. -/
inductive Effect (s : State) : State → Prop
  /-- Registers that no invariant speaks of. -/
  | plain {t : State} (h : t = s.withPlain t) : Effect s t
  /-- Fault entry (60_exceptions.md R350). -/
  | fault (op : BitVec 8) (x : Trap) : Effect s (s.raise op x)
  /-- Power-on reset, and CLOSE's end (10_state.md R76, R78). -/
  | powerOn : Effect s s.powerOn
  /-- INIT (40_sample_buffer.md R150). -/
  | init (hl : s.lifeState = .uninit) (hheld : s.held = none) (hget : s.getSuspended = false)
      (hsize : (s.arg0.toNat : Int) + s.arg1.toNat ≤ posMax) :
      Effect s { s.flushCursors with
        storage := []
        sizeBytes := s.arg0
        stateReserved := s.arg1
        vOpen := false
        hBuilt := false
        queue := []
        lifeState := .ready }
  /-- A command is held, its class having been checked (00_scope.md R15, 30_encoding.md R125). -/
  | hold (h : Held) (hheld : s.held = none) (hhost : h.ofHost = true → s.getSuspended = false)
      (hsource : h.ofSource = true → s.inRead = true) (happend : ∀ w, h = .append w → 0 ≤ w)
      (hjob : h.isJob = true → s.vOpen = true) : Effect s { s with held := some h }
  /-- A held command goes on. -/
  | release : Effect s s.release
  /-- SET_WIDTH, while the buffer is flushed (40_sample_buffer.md R155). -/
  | width (code : BitVec 2) (hflushed : s.flushed = true) : Effect s { s with wc := code }
  /-- The VADPCM unit is closed (40_sample_buffer.md R155, R160). -/
  | closeUnit : Effect s { s with vOpen := false }
  /-- The VADPCM unit is opened (41_vadpcm.md R230). -/
  | openUnit (hist : List (List Half)) : Effect s { s with vOpen := true, vHist := some hist }
  /-- V_HIST gets a value: a seek or a retirement (41_vadpcm.md R240, R252). -/
  | history (hist : List (List Half)) : Effect s { s with vHist := some hist }
  /-- V_HIST loses its value with the unit closed and no job pending or held (40_sample_buffer.md R160). -/
  | forgetHistory (hopen : s.vOpen = false) (hqueue : s.queue = []) (hheld : s.held = none) :
      Effect s { s with vHist := none }
  /-- H_TAB and H_BUILT, which is 1 only over three tables (42_huffman.md R280, R284). -/
  | tables (tab : HuffTables) (built : Bool)
      (hbuilt : built = true → tab.ctx0.isSome = true ∧ tab.ctx1.isSome = true ∧ tab.ctx2.isSome = true) :
      Effect s { s with hTab := tab, hBuilt := built }
  /-- A held VJOB's job joins QUEUE (41_vadpcm.md R252). -/
  | join (j : Job) (hheld : s.held = some (.vjob j)) : Effect s { s with queue := s.queue ++ [j] }
  /-- The oldest job leaves QUEUE (20_memory.md R94). -/
  | dequeue (j : Job) (rest : List Job) (hqueue : s.queue = j :: rest) : Effect s { s with queue := rest }
  /-- Bytes inside STORAGE get values (20_memory.md R81). -/
  | store (off : Nat) (bs : List Byte) (hin : bs = [] ∨ off + bs.length ≤ s.storageSize) :
      Effect s { s with storage := Memory.writeBytes s.storage off bs }
  /-- Bytes of STORAGE lose their values (20_memory.md R104). -/
  | clear (lo hi : Nat) : Effect s (s.clearBytes lo hi)
  /-- discard_window drops resident samples, for a command of class H or up to READ_CURSOR (40_sample_buffer.md R195,
  R205). -/
  | drop (idx : Nat) (hlen : (idx : Int) ≤ s.writeLen.toInt)
      (hpos : s.held.any Held.ofHost = true ∨ (idx : Int) ≤ s.readCursor.toInt) : Effect s (s.dropSamples idx)
  /-- A held APPEND extends the window within CAPACITY (40_sample_buffer.md R190). -/
  | extend (wlen : Int) (hheld : s.held = some (.append wlen)) (hcap : s.writeLen.toInt + wlen ≤ s.capacity) :
      Effect s { s with writeLen := s.fitS32 .writeLen (s.writeLen.toInt + wlen) }
  /-- UNDO shortens the window (40_sample_buffer.md R200). -/
  | trim (kept : Int) (hread : s.inRead = true) (hnonneg : 0 ≤ kept) (hle : kept ≤ s.writeLen.toInt) :
      Effect s { s with
        writeLen := BitVec.ofInt 32 kept
        readCursor := BitVec.ofInt 32 (min s.readCursor.toInt kept) }
  /-- The window is emptied, to begin at `pos` (40_sample_buffer.md R180, R210). -/
  | flushTo (pos : Int) (hnonneg : 0 ≤ pos) (hle : pos ≤ posMax) :
      Effect s { s.flushCursors with writePos := BitVec.ofInt 32 pos }
  /-- A continuous GET moves READ_CURSOR (40_sample_buffer.md R175, R185). -/
  | moveCursor (pos : Int) (hget : s.getSuspended = false) (hnonneg : 0 ≤ pos) (hcont : s.discontinuous pos = false) :
      Effect s { s with readCursor := s.fitS32 .readCursor (pos - s.writePos.toInt) }
  /-- A GET asks for a read and is suspended (40_sample_buffer.md R182). -/
  | request (pos len : Int) (seeking : Bool) (hheld : s.held = none) : Effect s (s.requestRead pos len seeking)
  /-- READ_DONE (40_sample_buffer.md R220). -/
  | readDone (hread : s.inRead = true) (hheld : s.held = none) : Effect s { s with inRead := false }
  /-- The suspended GET goes on with the window's end as NEW (40_sample_buffer.md R180, R185; assumption 9). -/
  | getDone (hread : s.inRead = false) (hend : s.writePos.toInt + s.writeLen.toInt ≤ posMax) :
      Effect s { s with
        getSuspended := false
        nextExpected := s.fitS32 .newPos (s.writePos.toInt + s.writeLen.toInt) }

/-- From FAULTED an effect leads back only by power-on (60_exceptions.md R352, R354). -/
theorem Effect.of_faulted {s t : State} (h : Effect s t) (hf : s.lifeState = .faulted) :
    t.lifeState = .faulted ∨ t = s.powerOn := by
  cases h
  case plain h =>
    rw [h]
    exact .inl hf
  case fault => exact .inl rfl
  case powerOn => exact .inr rfl
  case init hl _ _ _ =>
    rw [hf] at hl
    cases hl
  all_goals exact .inl hf

/-- A chain of effects. -/
abbrev Effects : State → State → Prop := Relation.ReflTransGen Effect

/-- An invariant that every effect keeps is kept by a chain of effects. -/
theorem Effects.keep {P : State → Prop} (hP : ∀ {s t}, Effect s t → P s → P t) {s t : State} (h : Effects s t)
    (hs : P s) : P t := by
  induction h with
  | refl => exact hs
  | tail _ e ih => exact hP e ih

/-- A change of plain registers only. -/
theorem Effects.of_plain {s t : State} (h : t = s.withPlain t) : Effects s t := .single (.plain h)

/-- Whatever a command's part answers, completed or faulted, is reached from `s` by effects. -/
def Exit.Reaches (s : State) (e : Exit) : Prop := ∀ op t, e.close op = .next t → Effects s t

theorem Exit.Reaches.done {s t : State} (h : Effects s t) : (Exit.done t).Reaches s := by
  rintro op u ⟨⟩
  exact h

theorem Exit.Reaches.trap {s t : State} {x : Trap} (h : Effects s t) : (Exit.trap t x).Reaches s := by
  rintro op u ⟨⟩
  exact h.tail (.fault op x)

/-- What is reached from a state that effects reach is reached. -/
theorem Exit.Reaches.after {s t : State} {e : Exit} (h : Effects s t) (he : e.Reaches t) : e.Reaches s :=
  fun op u hu => h.trans (he op u hu)

/-- A check of a command: the fault it raises is an effect. -/
theorem Exit.Reaches.guard {s t : State} {c : Prop} [Decidable c] {x : Trap} {e : Exit} (h : Effects s t)
    (he : ¬ c → e.Reaches s) : (if c then .trap t x else e).Reaches s := by
  split
  · exact .trap h
  · exact he ‹_›

theorem Exit.Reaches.andThen {s : State} {e : Exit} {k : State → Exit} (he : e.Reaches s)
    (hk : ∀ t, e = .done t → Effects s t → (k t).Reaches s) : (e.andThen k).Reaches s := by
  cases e with
  | done t => exact hk t rfl (he 0 t rfl)
  | trap t x => exact he

/-! ### Holds -/

theorem State.release_hold {s : State} (hheld : s.held = none) (h : Held) :
    State.release { s with held := some h } = s := by
  cases s
  cases hheld
  rfl

theorem State.hold_release (s : State) {h : Held} (hheld : s.held = some h) :
    { s.release with held := some h } = s := by
  cases s
  cases hheld
  rfl

/-- What a command does at once is reached by way of its hold. -/
theorem Exit.Reaches.of_hold {s : State} {h : Held} {rest : State → Exit} (hheld : s.held = none)
    (hhold : Effect s { s with held := some h })
    (hrest : (rest (State.release { s with held := some h })).Reaches { s with held := some h }) :
    (rest s).Reaches s := by
  rw [State.release_hold hheld] at hrest
  exact .after (.single hhold) hrest

theorem State.holdUntil_reaches {s : State} {ready : Bool} {h : Held} {rest : State → Exit} (hheld : s.held = none)
    (hhold : Effect s { s with held := some h })
    (hrest : ready = true → (rest (State.release { s with held := some h })).Reaches { s with held := some h }) :
    (s.holdUntil ready h rest).Reaches s := by
  rcases s.holdUntil_cases ready h rest with ⟨hr, he⟩ | ⟨-, he⟩
  · rw [he]
    exact .of_hold hheld hhold (hrest hr)
  · rw [he]
    exact .done (.single hhold)

/-! ### The lifecycle and configuration commands -/

theorem initBody_reaches {s : State} (hheld : s.held = none) (hget : s.getSuspended = false) :
    (initBody s).Reaches s := by
  refine .guard .refl fun hl => .guard .refl fun _ => .guard .refl fun _ => .guard .refl fun hsize => .done ?_
  exact .tail (.single (.init (not_not.mp hl) hheld hget (not_lt.mp hsize))) (.plain rfl)

theorem closeFinish_reaches (s : State) : (closeFinish s.release).Reaches s :=
  .done (.single .powerOn)

theorem closeBody_reaches {s : State} (hheld : s.held = none) (hget : s.getSuspended = false) :
    (closeBody s).Reaches s :=
  State.holdUntil_reaches hheld (.hold .close hheld (fun _ => hget) nofun nofun nofun)
    fun _ => closeFinish_reaches _

theorem setWidthBody_reaches (s : State) : (setWidthBody s).Reaches s := by
  refine .guard .refl fun _ => .guard .refl fun hf => .done ?_
  have hwidth : Effects s _ := .single (.width (widthCode s.arg0) (not_not.mp hf))
  exact (hwidth.tail .closeUnit).tail (.plain rfl)

theorem setSourceFinish_reaches {s : State} (id ssize : Word) (hqueue : s.queue = []) :
    (setSourceFinish id ssize s.release).Reaches s := by
  have hcleared : Effects s _ := .tail (.single .release) (.clear s.sizeBytes.toNat s.storageSize)
  have hclosed := (hcleared.tail .closeUnit).tail (.tables s.hTab false nofun)
  exact .done ((hclosed.tail (.forgetHistory rfl hqueue rfl)).tail (.plain rfl))

theorem setSourceBody_reaches {s : State} (hheld : s.held = none) (hget : s.getSuspended = false) :
    (setSourceBody s).Reaches s := by
  refine .guard .refl fun _ => .guard .refl fun _ => .guard .refl fun _ => ?_
  exact State.holdUntil_reaches hheld (.hold _ hheld (fun _ => hget) nofun nofun nofun)
    fun hd => setSourceFinish_reaches _ _ (s.drained_iff.mp hd)

/-! ### The window commands -/

theorem getDiscontinuous_reaches {s : State} {wpos : Int} (wlen : Int) (hheld : s.held = none)
    (hnonneg : 0 ≤ wpos) (hle : wpos ≤ posMax) : (getDiscontinuous wpos wlen s).Reaches s := by
  unfold getDiscontinuous
  have hflush := Effect.flushTo (s := s) (if s.bytesPerSample = 1 ∧ wpos % 2 = 1 then wpos - 1 else wpos)
    (by split <;> omega) (by split <;> omega)
  refine .guard (.single hflush) fun _ => .done ?_
  exact ((Relation.ReflTransGen.single hflush).tail (.plain rfl)).tail (.request _ _ _ hheld)

theorem getContinuous_reaches {s : State} {wpos : Int} (wlen : Int) (hheld : s.held = none)
    (hget : s.getSuspended = false) (hnonneg : 0 ≤ wpos) (hcont : s.discontinuous wpos = false) :
    (getContinuous wpos wlen s).Reaches s := by
  have hmark := Relation.ReflTransGen.single (Effect.moveCursor wpos hget hnonneg hcont)
  unfold getContinuous
  dsimp only
  split
  · refine .guard hmark fun _ => .done ?_
    exact (hmark.tail (.plain rfl)).tail (.request _ _ _ hheld)
  · exact .done (hmark.tail (.plain rfl))

theorem getBody_reaches {s : State} (hheld : s.held = none) (hget : s.getSuspended = false) :
    (getBody s).Reaches s := by
  refine .guard .refl fun hpos => .guard .refl fun _ => .guard .refl fun _ => .guard .refl fun _ =>
    .guard .refl fun _ => ?_
  have hlatch : Effects s { s with gWpos := s.arg0, gWlen := s.arg1 } := .of_plain rfl
  have hle := (toInt_bounds s.arg0).2
  dsimp only
  split
  · exact .after hlatch (getDiscontinuous_reaches _ hheld (by omega) hle)
  · rename_i hcont
    exact .after hlatch (getContinuous_reaches _ hheld hget (by omega) (Bool.eq_false_iff.mpr hcont))

theorem getResume_reaches {s : State} (hread : s.inRead = false) : (getResume s).Reaches s := by
  unfold getResume
  dsimp only
  split
  · rintro op t ⟨⟩
    exact .single (.fault op _)
  · exact .done (.tail (.single (.getDone hread (by omega))) (.plain rfl))

/-- discard_window of a held command, for what it does after it. -/
theorem State.discardWindow_reaches {s : State} {p : Int} {h : Held} {rest : State → Exit} (hheld : s.held = some h)
    (hpos : h.ofHost = true ∨ p - s.writePos.toInt ≤ s.readCursor.toInt)
    (hrest : ∀ u, u.held = some h → (rest u.release).Reaches u) :
    (s.release.discardWindow p h rest).Reaches s := by
  rcases s.release.discardWindow_cases p h rest with ⟨-, he⟩ | ⟨-, -, he⟩ | ⟨hne, -, he⟩
  · rw [he]
    exact hrest s hheld
  · rw [he, s.hold_release hheld]
    exact .done .refl
  · rw [he]
    obtain ⟨hdist, hlen⟩ := s.release.discardCount_le p hne
    have hdrop : Effect s (s.dropSamples (s.release.discardCount p)) := by
      refine .drop _ hlen (hpos.imp (fun hh => ?_) fun hc => hdist.trans hc)
      rw [hheld]
      exact hh
    exact .after (.single hdrop) (hrest _ hheld)

theorem discardRest_reaches {s : State} {wpos : Int} (hheld : s.held = some (.discard wpos)) :
    (s.release.discardWindow wpos (.discard wpos) .done).Reaches s :=
  State.discardWindow_reaches hheld (.inl rfl) fun _ _ => .done (.single .release)

theorem discardBody_reaches {s : State} (hheld : s.held = none) (hget : s.getSuspended = false) :
    (discardBody s).Reaches s := by
  refine .guard .refl fun _ => ?_
  exact .of_hold (rest := fun u => u.discardWindow (signedArg s.arg0) (.discard (signedArg s.arg0)) .done) hheld
    (.hold (.discard (signedArg s.arg0)) hheld (fun _ => hget) nofun nofun nofun) (discardRest_reaches rfl)

theorem flushBody_reaches (s : State) : (flushBody s).Reaches s :=
  .done (.tail (.single (.flushTo 0 (by decide) (by decide))) (.clear 0 s.sizeBytes.toNat))

theorem appendTail_reaches {s : State} {wlen : Int} (hheld : s.held = some (.append wlen)) :
    (appendTail wlen s.release).Reaches s := by
  have hrelease : Effects s s.release := .single .release
  refine .guard hrelease fun hcap => .guard hrelease fun _ => ?_
  split
  · exact .trap hrelease
  · have hextend : Effects s _ := .tail (.single (.extend wlen hheld (not_lt.mp hcap))) .release
    exact .done ((hextend.tail (.clear _ _)).tail (.plain rfl))

theorem State.granularity_pos (s : State) : 0 < s.granularity := by
  have : s.bytesPerSample ≤ 2 ^ 3 := Nat.pow_le_pow_right (by decide) (by omega)
  exact Nat.div_pos this s.bytesPerSample_pos

theorem appendCompacting_reaches {s : State} {wlen : Int} (hheld : s.held = some (.append wlen)) :
    (appendCompacting wlen s.release).Reaches s := by
  have hround := roundDown_le s.readCursor.toInt (Int.natCast_pos.mpr s.granularity_pos)
  refine State.discardWindow_reaches hheld (.inr ?_) fun _ => appendTail_reaches
  change s.writePos.toInt + roundDown s.readCursor.toInt s.granularity - s.writePos.toInt ≤ _
  omega

theorem appendBody_reaches {s : State} (hheld : s.held = none) (hread : s.inRead = true) :
    (appendBody s).Reaches s := by
  refine .guard .refl fun hw => ?_
  have hhold : Effect s { s with held := some (.append (signedArg s.arg0)) } :=
    .hold _ hheld nofun (fun _ => hread) (by rintro w ⟨⟩; omega) nofun
  split
  · exact .of_hold hheld hhold (appendCompacting_reaches rfl)
  · exact .of_hold hheld hhold (appendTail_reaches rfl)

theorem undoBody_reaches {s : State} (hread : s.inRead = true) : (undoBody s).Reaches s := by
  refine .guard .refl fun hw => .guard .refl fun hlen => .done ?_
  exact .tail (.single (.trim _ hread (by omega) (by omega))) (.clear _ _)

/-! ### DRAIN, READ_DONE, SCOPY and the staging commands -/

theorem drainBody_reaches {s : State} (hheld : s.held = none) : (drainBody s).Reaches s :=
  State.holdUntil_reaches hheld (.hold .drain hheld nofun nofun nofun nofun) fun _ => .done (.single .release)

theorem readDoneBody_reaches {s : State} (hheld : s.held = none) (hread : s.inRead = true) :
    (readDoneBody s).Reaches s :=
  .done (.single (.readDone hread hheld))

theorem State.storeBytes_reaches (s : State) (off : Nat) (bs : List Byte) : (s.storeBytes off bs).Reaches s := by
  rcases s.storeBytes_cases off bs with ⟨hin, he⟩ | ⟨-, he⟩
  · rw [he]
    exact .done (.single (.store off bs hin))
  · rw [he]
    exact .trap .refl

theorem scopyBody_reaches (s : State) : (scopyBody s).Reaches s := by
  refine .guard .refl fun _ => .guard .refl fun _ => ?_
  split
  · exact .trap .refl
  · split
    · exact .trap .refl
    · exact s.storeBytes_reaches _ _

theorem hdecodeBlock_reaches (dst : Nat) (s : State) : (hdecodeBlock dst s).Reaches s := by
  refine .guard .refl fun _ => .guard .refl fun _ => .guard .refl fun _ => .guard .refl fun _ => ?_
  split
  · exact .trap .refl
  · split
    · exact .trap .refl
    · exact (s.storeBytes_reaches _ _).andThen fun t _ ht => .done (ht.tail (.plain rfl))

theorem stageBlocks_reaches (dst n b : Nat) (s : State) : (stageBlocks dst n b s).Reaches s := by
  induction n generalizing b s with
  | zero => exact .done .refl
  | succ n ih => exact (hdecodeBlock_reaches _ s).andThen fun t _ ht => .after ht (ih (b + 1) t)

theorem stageRaw_reaches (dst nb : Nat) (s : State) : (stageRaw dst nb s).Reaches s := by
  unfold stageRaw
  split
  · exact .trap .refl
  · split
    · exact .trap .refl
    · exact s.storeBytes_reaches _ _

theorem vstageBody_reaches (s : State) : (vstageBody s).Reaches s := by
  unfold vstageBody
  dsimp only
  split
  · exact .trap .refl
  · refine Exit.Reaches.andThen ?_ fun t _ ht => .done (ht.tail (.plain rfl))
    split
    · exact stageBlocks_reaches _ _ _ s
    · exact stageRaw_reaches _ _ s

/-! ### The VADPCM and Huffman units -/

theorem vopenFinish_reaches (c : VConfig) (s : State) : (vopenFinish c s.release).Reaches s := by
  have hopen : Effects s _ :=
    .tail (.single .release) (.openUnit (zeroHistory c.channels.toNat c.order.toNat))
  exact .done ((hopen.tail (.tables s.hTab false nofun)).tail (.plain rfl))

theorem vopenBody_reaches {s : State} (hheld : s.held = none) (hget : s.getSuspended = false) :
    (vopenBody s).Reaches s := by
  unfold vopenBody
  split
  · exact .trap .refl
  · split
    · exact .trap .refl
    · split
      · exact .trap .refl
      · exact State.holdUntil_reaches hheld (.hold _ hheld (fun _ => hget) nofun nofun nofun)
          fun _ => vopenFinish_reaches _ _

theorem restoreSkipEntry_reaches (offset : Int) (e : Nat) (s : State) : (restoreSkipEntry offset e s).Reaches s := by
  unfold restoreSkipEntry
  dsimp only
  split
  · exact .trap .refl
  · exact .trap .refl
  · exact .done (.tail (.single (.history _)) (.plain rfl))

theorem vseekFinish_reaches (offset : Int) (s : State) : (vseekFinish offset s.release).Reaches s := by
  refine .after (.single .release) ?_
  unfold vseekFinish
  split
  · exact .done (.tail (.single (.history _)) (.plain rfl))
  · split
    · exact .trap .refl
    · exact .trap .refl
    · exact .guard .refl fun _ => restoreSkipEntry_reaches _ _ _

theorem vseekBody_reaches {s : State} (hheld : s.held = none) (hread : s.inRead = true) :
    (vseekBody s).Reaches s := by
  refine .guard .refl fun _ => .guard .refl fun _ => ?_
  exact State.holdUntil_reaches hheld (.hold _ hheld nofun (fun _ => hread) nofun nofun)
    fun _ => vseekFinish_reaches _ _

theorem vjobFinish_reaches {s : State} {j : Job} (hheld : s.held = some (.vjob j)) :
    (vjobFinish j s.release).Reaches s :=
  .done (.tail (.single (.join j hheld)) .release)

theorem vjobBody_reaches {s : State} (hheld : s.held = none) (hread : s.inRead = true) :
    (vjobBody s).Reaches s := by
  refine .guard .refl fun _ => .guard .refl fun hopen => .guard .refl fun _ => .guard .refl fun _ => ?_
  dsimp only
  split
  · exact .trap .refl
  · split
    · exact .trap .refl
    · exact State.holdUntil_reaches hheld
        (.hold _ hheld nofun (fun _ => hread) nofun fun _ => Bool.not_eq_false _ ▸ hopen)
        fun _ => vjobFinish_reaches rfl

/-- While HBUILD builds, with H_BUILT cleared, only the tables change (42_huffman.md R280). -/
theorem buildContexts_reaches (ks : List Nat) (s : State) :
    (buildContexts ks { s with hBuilt := false }).Reaches { s with hBuilt := false } := by
  induction ks generalizing s with
  | nil => exact .done .refl
  | cons k rest ih =>
    unfold buildContexts
    split
    · exact .trap .refl
    · exact .after (.single (.tables (s.hTab.put k _) false nofun)) (ih { s with hTab := s.hTab.put k _ })

/-- When HBUILD has built its contexts, all three tables have values (42_huffman.md R284). -/
theorem buildContexts_tables {s t : State} (h : buildContexts [0, 1, 2] s = .done t) :
    t.hTab.ctx0.isSome = true ∧ t.hTab.ctx1.isSome = true ∧ t.hTab.ctx2.isSome = true := by
  simp only [buildContexts] at h
  split at h
  · cases h
  · split at h
    · cases h
    · split at h
      · cases h
      · cases h
        exact ⟨rfl, rfl, rfl⟩

theorem hbuildBody_reaches (s : State) : (hbuildBody s).Reaches s := by
  have hcleared : Effects s { s with hBuilt := false } := .single (.tables s.hTab false nofun)
  refine .guard hcleared fun _ => .guard hcleared fun _ => .after hcleared ?_
  exact (buildContexts_reaches _ s).andThen fun t hbuilt ht =>
    .done (ht.tail (.tables t.hTab true fun _ => buildContexts_tables hbuilt))

/-! ### Every command -/

/-- A command's own part, started with no command held, outside a suspended GET for class H and in a read for
class S. -/
theorem bodyOf_reaches {i : Instr} {s : State} (hheld : s.held = none)
    (hhost : commandClass i = .host → s.getSuspended = false)
    (hsource : commandClass i = .source → s.inRead = true) : (bodyOf i s).Reaches s := by
  cases i with
  | init => exact initBody_reaches hheld (hhost rfl)
  | close => exact closeBody_reaches hheld (hhost rfl)
  | setWidth => exact setWidthBody_reaches s
  | setSource => exact setSourceBody_reaches hheld (hhost rfl)
  | get => exact getBody_reaches hheld (hhost rfl)
  | discard => exact discardBody_reaches hheld (hhost rfl)
  | flush => exact flushBody_reaches s
  | drain => exact drainBody_reaches hheld
  | append => exact appendBody_reaches hheld (hsource rfl)
  | undo => exact undoBody_reaches (hsource rfl)
  | readDone => exact readDoneBody_reaches hheld (hsource rfl)
  | scopy => exact scopyBody_reaches s
  | vopen => exact vopenBody_reaches hheld (hhost rfl)
  | vseek => exact vseekBody_reaches hheld (hsource rfl)
  | vstage => exact vstageBody_reaches s
  | vjob => exact vjobBody_reaches hheld (hsource rfl)
  | hbuild => exact hbuildBody_reaches s
  | hdecode => exact hdecodeBlock_reaches _ s

/-- Where the control path is free to take a command word (20_memory.md R100): no command held, and outside a read no
GET suspended. -/
def State.controlPathFree (s : State) : Prop := s.held = none ∧ (s.inRead = false → s.getSuspended = false)

theorem exec_effects {i : Instr} {s t : State} (hfree : s.lifeState ≠ .faulted → s.controlPathFree)
    (h : exec i s = .next t) : Effects s t := by
  rw [exec_eq_issue] at h
  rcases issue_cases i (bodyOf i) s with ⟨-, he⟩ | ⟨-, x, he⟩ | ⟨hl, -, hclass, he⟩ <;> rw [he] at h
  · cases h
    exact .refl
  · cases h
    exact .single (.fault _ x)
  · obtain ⟨hheld, hget⟩ := hfree hl
    refine bodyOf_reaches hheld (fun hc => hget ?_) (fun hc => ?_) _ t h
    · simpa [classAllows, hc] using hclass
    · simpa [classAllows, hc] using hclass

/-- A held command that goes on (20_memory.md R101). -/
theorem resumeHeld_effects {s t : State} {h : Held} (hheld : s.held = some h) (hready : s.heldReady h = true)
    (ht : resumeHeld h s.release = .next t) : Effects s t := by
  cases h with
  | close => exact closeFinish_reaches s (opcode .close) t ht
  | setSource id ssize => exact setSourceFinish_reaches id ssize (s.drained_iff.mp hready) (opcode .setSource) t ht
  | drain =>
    cases ht
    exact .single .release
  | discard wpos => exact discardRest_reaches hheld (opcode .discard) t ht
  | append wlen => exact appendCompacting_reaches hheld (opcode .append) t ht
  | vopen c => exact vopenFinish_reaches c s (opcode .vopen) t ht
  | vseek offset => exact vseekFinish_reaches offset s (opcode .vseek) t ht
  | vjob j => exact vjobFinish_reaches hheld (opcode .vjob) t ht

/-! ### The agents' moves -/

theorem retireJob_reaches {P : Predictor} {j : Job} {rest : List Job} {s : State} (hqueue : s.queue = j :: rest) :
    (retireJob P j rest s).Reaches s := by
  unfold retireJob
  split
  · exact .done (.single (.dequeue j rest hqueue))
  · split
    · exact .trap .refl
    · unfold State.commitJob
      rcases s.storeBytes_cases j.dst _ with ⟨hin, he⟩ | ⟨-, he⟩ <;> rw [he]
      · exact .done (.tail (.tail (.single (.store _ _ hin)) (.dequeue j rest hqueue)) (.history _))
      · exact .trap .refl

theorem engineStep_effects {s t : State} (h : engineStep s = .next t) : Effects s t := by
  unfold engineStep engineStepWith at h
  split at h
  · cases h
    exact .refl
  · split at h
    · cases h
      exact .refl
    · exact retireJob_reaches ‹_› _ t h

/-- The control path has no work only where it is free to take a command word, or FAULTED. -/
theorem State.controlPathFree_of_nothing {s : State} (h : s.controlWork = .nothing) (hl : s.lifeState ≠ .faulted) :
    s.controlPathFree := by
  unfold State.controlWork at h
  rw [if_neg hl] at h
  split at h
  · cases h
  · refine ⟨‹_›, fun hr => ?_⟩
    simpa [hr] using h

theorem State.held_of_controlWork {s : State} {h : Held} (hw : s.controlWork = .held h) : s.held = some h := by
  unfold State.controlWork at hw
  split at hw
  · cases hw
  · split at hw
    · cases hw
      assumption
    · split at hw <;> split at hw <;> cases hw

/-- A suspended GET goes on only after its read. -/
theorem State.inRead_of_getGoesOn {s : State} (hw : s.controlWork = .getGoesOn) : s.inRead = false := by
  unfold State.controlWork at hw
  split at hw
  · cases hw
  · split at hw
    · cases hw
    · split at hw
      · split at hw <;> cases hw
      · exact Bool.eq_false_iff.mpr ‹_›

theorem State.controlPathFree_of_source {s : State} (hw : s.controlWork = .source) : s.controlPathFree := by
  have hread := s.inRead_of_controlWork_source hw
  unfold State.controlWork at hw
  split at hw
  · cases hw
  · split at hw
    · cases hw
    · exact ⟨‹_›, fun h => by rw [hread] at h; cases h⟩

theorem takeSourceTurn_effects {turn : SourceTurn} {s t : State} (hfree : s.controlPathFree)
    (h : takeSourceTurn turn s = .next t) : Effects s t := by
  cases turn with
  | issue i a0 a1 a2 after =>
    have hturn : Effects s { s with arg0 := a0, arg1 := a1, arg2 := a2, srcPhase := after } := .of_plain rfl
    exact hturn.trans (exec_effects (fun _ => hfree) h)
  | outside =>
    cases h
    exact .refl
  | refused => cases h

theorem controlStep_effects {idle : State → Result} (hidle : ∀ {s t}, idle s = .next t → Effects s t)
    {s t : State} (h : controlStep idle s = .next t) : Effects s t := by
  unfold controlStep at h
  split at h
  next held hw =>
    split at h
    · exact resumeHeld_effects (State.held_of_controlWork hw) ‹_› h
    · exact hidle h
  next hw => exact getResume_reaches (State.inRead_of_getGoesOn hw) _ t h
  next hw => exact takeSourceTurn_effects (State.controlPathFree_of_source hw) h
  next => exact hidle h

theorem State.raiseUnlessFaulted_effects (s : State) (x : Trap) : Effects s (s.raiseUnlessFaulted x) := by
  unfold State.raiseUnlessFaulted
  split
  · exact .refl
  · exact .single (.fault _ x)

theorem State.regRead_effects (s : State) (offset : BitVec 8) (width : Nat) : Effects s (s.regRead offset width) := by
  have hblank : Effects s { s with hostWord := none } := .of_plain rfl
  unfold State.regRead
  split
  · exact hblank.trans (State.raiseUnlessFaulted_effects _ _)
  · split
    · exact .of_plain rfl
    · exact hblank.trans (State.raiseUnlessFaulted_effects _ _)

theorem State.consumerRead_effects (s : State) (off n : Nat) : Effects s (s.consumerRead off n) := by
  have hblank : Effects s { s with hostBytes := none } := .of_plain rfl
  unfold State.consumerRead
  dsimp only
  split
  · exact hblank
  · split
    · exact hblank.tail (.fault _ _)
    · split
      · exact hblank.tail (.fault _ _)
      · split
        · exact hblank.tail (.fault _ _)
        · exact .of_plain rfl

theorem issueWord_effects {w : Word} {s t : State} (hfree : s.lifeState ≠ .faulted → s.controlPathFree)
    (h : issueWord w s = .next t) : Effects s t := by
  unfold issueWord at h
  split at h
  · cases h
    exact .refl
  · split at h
    · cases h
      exact .single (.fault _ _)
    · exact exec_effects hfree h

theorem regWrite_effects {offset : BitVec 8} {width : Nat} {value : Word} {s t : State}
    (hfree : offset = 0 → s.lifeState ≠ .faulted → s.controlPathFree)
    (h : regWrite offset width value s = .next t) : Effects s t := by
  unfold regWrite at h
  split at h
  · cases h
    exact s.raiseUnlessFaulted_effects _
  · split at h
    case h_1 hzero => exact issueWord_effects (hfree (BitVec.eq_of_toNat_eq hzero)) h
    case h_6 =>
      cases h
      exact s.raiseUnlessFaulted_effects _
    all_goals
      cases h
      exact .of_plain rfl

/-- A command word that need not wait finds the control path without work. -/
theorem State.controlWork_of_not_writeWaits {s : State} (h : s.writeWaits 0 = false) : s.controlWork = .nothing := by
  simpa [State.writeWaits] using h

/-- Every next state of a step is reached by effects. -/
theorem step_effects {s t : State} (h : step s = .next t) : Effects s t := by
  cases hin : s.inputs with
  | nil =>
    rw [step_idle hin] at h
    exact .head (.plain rfl) (controlStep_effects engineStep_effects h)
  | cons move rest =>
    have hmove : Effects s (s.afterMove rest) := .of_plain rfl
    cases move with
    | regWrite offset width value =>
      cases hw : s.writeWaits offset with
      | true =>
        rw [step_waits hin hw] at h
        exact .head (.plain rfl) (controlStep_effects engineStep_effects h)
      | false =>
        rw [step_regWrite hin hw] at h
        refine hmove.trans (regWrite_effects (fun hzero hl => ?_) h)
        subst hzero
        exact State.controlPathFree_of_nothing (State.controlWork_of_not_writeWaits hw) hl
    | regRead offset width =>
      rw [step_regRead hin] at h
      cases h
      exact hmove.trans (State.regRead_effects _ _ _)
    | consumerRead off n =>
      rw [step_consumerRead hin] at h
      cases h
      exact hmove.trans (State.consumerRead_effects _ _ _)
    | engine =>
      rw [step_engine hin] at h
      exact hmove.trans (engineStep_effects h)
    | control =>
      rw [step_control hin] at h
      refine hmove.trans (controlStep_effects ?_ h)
      rintro u v ⟨⟩
      exact .refl
    | powerOn =>
      rw [step_powerOn hin] at h
      cases h
      exact hmove.tail .powerOn

end Sys2Proof.Machine
end

section
/-! PROOF. The storage, window and unit invariants: each is kept by every effect, hence by every step, and the reset
state meets them. -/

namespace Sys2Proof.Machine

/-! ### The storage invariant -/

theorem Memory.bounded_clear {m : List Host.Cell} {bound : Nat} (lo hi : Nat) (h : ∀ c ∈ m, c.1 < bound) :
    ∀ c ∈ Memory.clear m lo hi, c.1 < bound :=
  fun c hc => h c (List.mem_filter.mp hc).1

/-- Bytes written inside the bound leave no byte beyond it. -/
theorem Memory.bounded_writeBytes {m : List Host.Cell} {bound off : Nat} {bs : List Byte}
    (hin : bs = [] ∨ off + bs.length ≤ bound) (h : ∀ c ∈ m, c.1 < bound) :
    ∀ c ∈ Memory.writeBytes m off bs, c.1 < bound := by
  rcases hin with rfl | hin
  · exact h
  · rw [Memory.bounded_iff] at h ⊢
    intro x hx
    rw [Memory.read_writeBytes, if_neg (by omega), h x hx]

/-- A copy downwards reads no byte beyond the bound, and so writes none there. -/
theorem Memory.bounded_copy_down {m : List Host.Cell} {bound dst src n : Nat} (hdown : dst ≤ src)
    (h : ∀ c ∈ m, c.1 < bound) : ∀ c ∈ Memory.copy m dst src n, c.1 < bound := by
  rw [Memory.bounded_iff] at h ⊢
  intro x hx
  rw [Memory.read_copy]
  split
  · exact h _ (by omega)
  · exact h x hx

theorem State.powerOn_storageInvariant (s : State) : s.powerOn.storageInvariant := ⟨rfl, nofun⟩

theorem Effect.storageInvariant {s t : State} (h : Effect s t) (hs : s.storageInvariant) : t.storageInvariant := by
  have ⟨hwf, hbound⟩ := hs
  cases h
  case plain h =>
    rw [h]
    exact hs
  case powerOn => exact s.powerOn_storageInvariant
  case init => exact ⟨rfl, nofun⟩
  case store off bs hin => exact ⟨Memory.wf_writeBytes bs off hwf, Memory.bounded_writeBytes hin hbound⟩
  case clear lo hi => exact ⟨Memory.wf_clear lo hi hwf, Memory.bounded_clear lo hi hbound⟩
  case drop idx _ _ =>
    exact ⟨Memory.wf_clear _ _ (Memory.wf_copy _ _ _ hwf),
      Memory.bounded_clear _ _ (Memory.bounded_copy_down (Nat.zero_le _) hbound)⟩
  all_goals exact hs

/-- Settles O49: STORAGE changes only by power-on, INIT, a checked store, a clearing and discard_window's copy down. -/
theorem stepKeepsTheStorageInvariant : Obligations.StepKeepsTheStorageInvariant :=
  fun _ _ hs h => (step_effects h).keep Effect.storageInvariant hs

/-! ### The unit invariant -/

theorem State.powerOn_unitInvariant (s : State) : s.powerOn.unitInvariant :=
  .inr ⟨by simp [State.reset], nofun⟩

theorem Effect.unitInvariant {s t : State} (h : Effect s t) (hs : s.unitInvariant) : t.unitInvariant := by
  by_cases hf : s.lifeState = .faulted
  · rcases h.of_faulted hf with ht | rfl
    · exact .inl ht
    · exact s.powerOn_unitInvariant
  have ⟨hhist, htab⟩ := hs.resolve_left hf
  cases h
  case plain h =>
    rw [h]
    exact hs
  case fault => exact .inl rfl
  case powerOn => exact s.powerOn_unitInvariant
  case init hheld _ _ => exact .inr ⟨by simp [State.flushCursors, hheld], nofun⟩
  case hold h _ _ _ _ hjob =>
    refine .inr ⟨?_, htab⟩
    rintro (hopen | hqueue | hh)
    · exact hhist (.inl hopen)
    · exact hhist (.inr (.inl hqueue))
    · exact hhist (.inl (hjob hh))
  case release =>
    refine .inr ⟨?_, htab⟩
    rintro (hopen | hqueue | hh)
    · exact hhist (.inl hopen)
    · exact hhist (.inr (.inl hqueue))
    · cases hh
  case closeUnit => exact .inr ⟨fun hu => hhist (.inr (hu.resolve_left nofun)), htab⟩
  case openUnit => exact .inr ⟨fun _ => rfl, htab⟩
  case history => exact .inr ⟨fun _ => rfl, htab⟩
  case forgetHistory hopen hqueue hheld => exact .inr ⟨by simp [hopen, hqueue, hheld], htab⟩
  case tables _ _ hbuilt => exact .inr ⟨hhist, hbuilt⟩
  case join j hheld => exact .inr ⟨fun _ => hhist (.inr (.inr (by simp [hheld]))), htab⟩
  case dequeue j rest hqueue =>
    have hpending : s.queue ≠ [] := by simp [hqueue]
    exact .inr ⟨fun _ => hhist (.inr (.inl hpending)), htab⟩
  all_goals exact hs

/-- Settles O51: what opens the unit or issues a job has given V_HIST its value, and only power-on and SET_SOURCE take it
away, with the unit closed and no job pending. -/
theorem stepKeepsTheUnitInvariant : Obligations.StepKeepsTheUnitInvariant :=
  fun _ _ hs h => (step_effects h).keep Effect.unitInvariant hs

/-! ### The window invariant -/

theorem State.capacity_le_sizeBytes (s : State) : s.capacity ≤ s.sizeBytes.toNat := Nat.div_le_self _ _

/-- Where GET's path is continuous the position is a resident one or the window's end (40_sample_buffer.md R175). -/
theorem State.within_of_not_discontinuous {s : State} {pos : Int} (hc : s.cursorInvariants) (hpos : 0 ≤ pos)
    (hcont : s.discontinuous pos = false) :
    s.writePos.toInt ≤ pos ∧ pos ≤ s.writePos.toInt + s.writeLen.toInt := by
  obtain ⟨⟨hcur, hcurLen⟩, -, -, hnew, -⟩ := hc
  simp only [State.discontinuous, decide_eq_false_iff_not] at hcont
  omega

/-- A flushed window meets the bounds and R41's items, whatever the capacity. -/
theorem State.windowInvariant_of_flushed {s : State} (hf : s.flushed = true)
    (hsize : (s.sizeBytes.toNat : Int) ≤ posMax) (hread : s.getSuspended = false → s.inRead = false)
    (hsource : s.held.any Held.ofSource = true → s.inRead = true)
    (hhost : s.held.any Held.ofHost = true → s.getSuspended = false)
    (happend : ∀ w, s.held = some (.append w) → 0 ≤ w) : s.windowInvariant := by
  obtain ⟨hpos, hlen, hcur, hnew⟩ := s.flushed_iff.mp hf
  refine .inr ⟨?_, fun hg => ⟨hread hg, ?_⟩, hsource, hhost, happend⟩
  · simp [State.windowBounds, hpos, hlen, hcur, hsize]
  · simp [State.cursorInvariants, hpos, hlen, hcur, hnew]

theorem State.powerOn_windowInvariant (s : State) : s.powerOn.windowInvariant :=
  State.windowInvariant_of_flushed rfl (by simp [State.reset]) (fun _ => rfl) nofun nofun nofun

/-- The window's bounds, said of the numbers the cursors show. -/
theorem State.windowBounds_of {s : State} {pos len cur : Int} (hpos : s.writePos.toInt = pos)
    (hlen : s.writeLen.toInt = len) (hcur : s.readCursor.toInt = cur)
    (h : 0 ≤ pos ∧ 0 ≤ cur ∧ cur ≤ len ∧ len ≤ s.capacity ∧ pos + cur ≤ posMax
      ∧ (s.sizeBytes.toNat : Int) ≤ posMax) : s.windowBounds := by
  subst hpos hlen hcur
  exact h

/-- R41's five items, said of the numbers the cursors show. -/
theorem State.cursorInvariants_of {s : State} {pos len cur new : Int} (hpos : s.writePos.toInt = pos)
    (hlen : s.writeLen.toInt = len) (hcur : s.readCursor.toInt = cur) (hnew : s.nextExpected.toInt = new)
    (h : (0 ≤ cur ∧ cur ≤ len) ∧ len ≤ s.capacity ∧ pos + len ≤ posMax ∧ (new = -1 ∨ new = pos + len)
      ∧ (new = -1 → len = 0)) : s.cursorInvariants := by
  subst hpos hlen hcur hnew
  exact h

section
variable {s : State} (hs : s.windowInvariant)
include hs

/-- discard_window moves WRITE_POS up and WRITE_LEN down by the samples dropped: the window's end stays, which is at
most POS_MAX outside a read, as READ_CURSOR's position always is (40_sample_buffer.md R205). -/
theorem State.windowInvariant_dropSamples {idx : Nat} (hlen : (idx : Int) ≤ s.writeLen.toInt)
    (hpos : s.held.any Held.ofHost = true ∨ (idx : Int) ≤ s.readCursor.toInt) :
    (s.dropSamples idx).windowInvariant := by
  refine hs.imp id fun ⟨hbounds, hget, hsource, hhost, happend⟩ => ?_
  obtain ⟨hpos0, hcur0, hcurLen, hcap, hsum, hsize⟩ := hbounds
  have hlenMax : s.writeLen.toInt ≤ 2147483647 := (toInt_bounds _).2
  have hend : s.writePos.toInt + idx ≤ 2147483647 := by
    rcases hpos with hh | hle
    · obtain ⟨-, -, hitem3, -⟩ := (hget (hhost hh)).2
      exact (by omega : _ ≤ s.writePos.toInt + s.writeLen.toInt).trans hitem3
    · exact (by omega : _ ≤ s.writePos.toInt + s.readCursor.toInt).trans hsum
  have hpos' := s.fitS32_toInt .writePos (v := s.writePos.toInt + idx) (by omega) hend
  have hlen' : (BitVec.ofNat 32 (s.writeLen.toInt.toNat - idx)).toInt = s.writeLen.toInt - idx := by
    rw [ofNat_toInt (by omega)]
    omega
  have hcur' := ofInt_toInt (v := max (s.readCursor.toInt - idx) 0) (by omega) (by omega)
  refine ⟨State.windowBounds_of hpos' hlen' hcur' ?_, fun hg => ⟨(hget hg).1, ?_⟩, hsource, hhost, happend⟩
  · have hsum' : s.writePos.toInt + idx + max (s.readCursor.toInt - idx) 0 ≤ posMax :=
      (by omega : _ ≤ max (s.writePos.toInt + s.readCursor.toInt) (s.writePos.toInt + idx)).trans (max_le hsum hend)
    exact ⟨by omega, by omega, by omega, (by omega : _ ≤ s.writeLen.toInt).trans hcap, hsum', hsize⟩
  · have hitems := (hget hg).2
    refine State.cursorInvariants_of hpos' hlen' hcur' rfl ?_
    simp only [State.dropSamples_capacity, State.dropSamples_nextExpected]
    omega

/-- APPEND lengthens the window within CAPACITY, inside a read (40_sample_buffer.md R190). -/
theorem State.windowInvariant_extend {wlen : Int} (hheld : s.held = some (.append wlen))
    (hcap : s.writeLen.toInt + wlen ≤ s.capacity) :
    State.windowInvariant { s with writeLen := s.fitS32 .writeLen (s.writeLen.toInt + wlen) } := by
  refine hs.imp id fun ⟨hbounds, hget, hsource, hhost, happend⟩ => ?_
  obtain ⟨hpos0, hcur0, hcurLen, -, hsum, hsize⟩ := hbounds
  have hw := happend wlen hheld
  have hread := hsource (by simp [hheld])
  have hmax : s.writeLen.toInt + wlen ≤ 2147483647 :=
    hcap.trans ((Int.ofNat_le.mpr s.capacity_le_sizeBytes).trans hsize)
  have hlen' := s.fitS32_toInt .writeLen (by omega) hmax
  exact ⟨State.windowBounds_of rfl hlen' rfl ⟨hpos0, hcur0, hcurLen.trans (by omega), hcap, hsum, hsize⟩,
    fun hg => absurd hread (by simp [(hget hg).1]), hsource, hhost, happend⟩

/-- UNDO shortens the window, inside a read, and takes READ_CURSOR back into it (40_sample_buffer.md R200). -/
theorem State.windowInvariant_trim {kept : Int} (hread : s.inRead = true) (hnonneg : 0 ≤ kept)
    (hle : kept ≤ s.writeLen.toInt) :
    State.windowInvariant { s with
      writeLen := BitVec.ofInt 32 kept
      readCursor := BitVec.ofInt 32 (min s.readCursor.toInt kept) } := by
  refine hs.imp id fun ⟨hbounds, hget, hsource, hhost, happend⟩ => ?_
  obtain ⟨hpos0, hcur0, hcurLen, hcap, hsum, hsize⟩ := hbounds
  have hlenMax : s.writeLen.toInt ≤ 2147483647 := (toInt_bounds _).2
  have hlen' := ofInt_toInt (v := kept) (by omega) (by omega)
  have hcur' := ofInt_toInt (v := min s.readCursor.toInt kept) (by omega) (by omega)
  have hsum' : s.writePos.toInt + min s.readCursor.toInt kept ≤ posMax := by omega
  exact ⟨State.windowBounds_of rfl hlen' hcur' ⟨hpos0, by omega, by omega, hle.trans hcap, hsum', hsize⟩,
    fun hg => absurd hread (by simp [(hget hg).1]), hsource, hhost, happend⟩

/-- A flush empties the window, to begin at a legal position (40_sample_buffer.md R180, R210). -/
theorem State.windowInvariant_flushTo {pos : Int} (hnonneg : 0 ≤ pos) (hle : pos ≤ posMax) :
    State.windowInvariant { s.flushCursors with writePos := BitVec.ofInt 32 pos } := by
  refine hs.imp id fun ⟨hbounds, hget, hsource, hhost, happend⟩ => ?_
  obtain ⟨-, -, -, -, -, hsize⟩ := hbounds
  have hpos' := ofInt_toInt (v := pos) (by omega) hle
  have hend : pos + 0 ≤ posMax := by omega
  exact ⟨State.windowBounds_of hpos' rfl rfl ⟨hnonneg, le_rfl, le_rfl, Int.natCast_nonneg _, hend, hsize⟩,
    fun hg => ⟨(hget hg).1, State.cursorInvariants_of hpos' rfl rfl rfl
      ⟨⟨le_rfl, le_rfl⟩, Int.natCast_nonneg _, hend, .inl rfl, fun _ => rfl⟩⟩, hsource, hhost, happend⟩

/-- A continuous GET moves READ_CURSOR inside the window (40_sample_buffer.md R185). -/
theorem State.windowInvariant_moveCursor {pos : Int} (hg : s.getSuspended = false) (hnonneg : 0 ≤ pos)
    (hcont : s.discontinuous pos = false) :
    State.windowInvariant { s with readCursor := s.fitS32 .readCursor (pos - s.writePos.toInt) } := by
  refine hs.imp id fun ⟨hbounds, hget, hsource, hhost, happend⟩ => ?_
  obtain ⟨hpos0, -, -, hcap, -, hsize⟩ := hbounds
  obtain ⟨hread, hitems⟩ := hget hg
  obtain ⟨hlo, hhi⟩ := State.within_of_not_discontinuous hitems hnonneg hcont
  obtain ⟨-, -, hitem3, hitem4, hitem5⟩ := hitems
  have hlenMax : s.writeLen.toInt ≤ 2147483647 := (toInt_bounds _).2
  have hcur0 : 0 ≤ pos - s.writePos.toInt := by omega
  have hcurLen : pos - s.writePos.toInt ≤ s.writeLen.toInt := by omega
  have hcur' := s.fitS32_toInt .readCursor (v := pos - s.writePos.toInt) (by omega) (by omega)
  have hsum' : s.writePos.toInt + (pos - s.writePos.toInt) ≤ posMax := by omega
  exact ⟨State.windowBounds_of rfl rfl hcur' ⟨hpos0, hcur0, hcurLen, hcap, hsum', hsize⟩,
    fun _ => ⟨hread, State.cursorInvariants_of rfl rfl hcur' rfl
      ⟨⟨hcur0, hcurLen⟩, hcap, hitem3, hitem4, hitem5⟩⟩, hsource, hhost, happend⟩

/-- The GET that goes on makes the window's end NEW: R41's items hold again (40_sample_buffer.md R180, R185). -/
theorem State.windowInvariant_getDone (hread : s.inRead = false)
    (hend : s.writePos.toInt + s.writeLen.toInt ≤ posMax) :
    State.windowInvariant { s with
      getSuspended := false
      nextExpected := s.fitS32 .newPos (s.writePos.toInt + s.writeLen.toInt) } := by
  refine hs.imp id fun ⟨hbounds, _, hsource, _, happend⟩ => ?_
  have ⟨hpos0, hcur0, hcurLen, hcap, _, _⟩ := hbounds
  have hnew := s.fitS32_toInt .newPos (v := s.writePos.toInt + s.writeLen.toInt) (by omega) hend
  exact ⟨hbounds, fun _ => ⟨hread, State.cursorInvariants_of rfl rfl rfl hnew
    ⟨⟨hcur0, hcurLen⟩, hcap, hend, .inr rfl, by omega⟩⟩, hsource, fun _ => rfl, happend⟩

end

theorem Effect.windowInvariant {s t : State} (h : Effect s t) (hs : s.windowInvariant) : t.windowInvariant := by
  by_cases hf : s.lifeState = .faulted
  · rcases h.of_faulted hf with ht | rfl
    · exact .inl ht
    · exact s.powerOn_windowInvariant
  have ⟨hbounds, hget, hsource, hhost, happend⟩ := hs.resolve_left hf
  have ⟨_, _, _, _, _, hsize⟩ := hbounds
  cases h
  case plain h =>
    rw [h]
    exact hs
  case fault => exact .inl rfl
  case powerOn => exact s.powerOn_windowInvariant
  case init _ hheld hg hinit =>
    have hsize' : (s.arg0.toNat : Int) ≤ posMax := by omega
    exact State.windowInvariant_of_flushed rfl hsize' (fun _ => (hget hg).1) hsource hhost happend
  case hold h _ hh hs hw _ => exact .inr ⟨hbounds, hget, hs, hh, fun w hw' => hw w (Option.some.inj hw')⟩
  case release => exact .inr ⟨hbounds, hget, nofun, nofun, nofun⟩
  case width code hflushed =>
    exact State.windowInvariant_of_flushed hflushed hsize (fun hg => (hget hg).1) hsource hhost happend
  case drop idx hlen hpos => exact State.windowInvariant_dropSamples hs hlen hpos
  case extend w hheld hcap => exact State.windowInvariant_extend hs hheld hcap
  case trim kept hread hnonneg hle => exact State.windowInvariant_trim hs hread hnonneg hle
  case flushTo pos hnonneg hle => exact State.windowInvariant_flushTo hs hnonneg hle
  case moveCursor pos hg hnonneg hcont => exact State.windowInvariant_moveCursor hs hg hnonneg hcont
  case request pos len seeking hheld =>
    exact .inr ⟨hbounds, nofun, fun _ => rfl, by simp [hheld], happend⟩
  case readDone hread hheld =>
    exact .inr ⟨hbounds, fun hg => absurd hread (by simp [(hget hg).1]), by simp [hheld], hhost, happend⟩
  case getDone hread hend => exact State.windowInvariant_getDone hs hread hend
  all_goals exact hs

/-- Settles O50: what a command has checked, its class and its operands, bounds the cursors it leaves, and a GET that
would end past POS_MAX faults (assumption 9). -/
theorem stepKeepsTheWindowInvariant : Obligations.StepKeepsTheWindowInvariant :=
  fun _ _ hs h => (step_effects h).keep Effect.windowInvariant hs

/-! ### The reset state -/

theorem State.powerOn_meetsInvariants (s : State) :
    s.powerOn.storageInvariant ∧ s.powerOn.windowInvariant ∧ s.powerOn.unitInvariant :=
  ⟨s.powerOn_storageInvariant, s.powerOn_windowInvariant, s.powerOn_unitInvariant⟩

/-- Settles O53: the reset state is what power-on makes of it. -/
theorem resetMeetsTheInvariants : Obligations.ResetMeetsTheInvariants :=
  fun versions media inputs =>
    State.powerOn_meetsInvariants { State.reset with codecVersions := versions, media := media, inputs := inputs }

/-- STATUS after power-on shows UNINIT and an empty window (10_state.md R76, 30_encoding.md R127). -/
theorem State.powerOn_statusWord (s : State) : s.powerOn.statusWord = 0x00000008 := rfl

theorem State.powerOn_storageSize (s : State) : s.powerOn.storageSize = 0 := rfl

theorem HuffTables.context_of_none (k : Nat) : HuffTables.context ⟨none, none, none⟩ k = none := by
  unfold HuffTables.context
  split <;> rfl

/-- Settles O8: a power-on move answers the power-on state, whose registers are the reset state's. -/
theorem powerOnResetGivesTheResetValues : Obligations.PowerOnResetGivesTheResetValues := by
  intro s rest h
  refine ⟨_, step_powerOn h, ?_⟩
  simp [State.powerOn_statusWord, State.powerOn_storageSize, State.reset, causeCode, HuffTables.context_of_none]

end Sys2Proof.Machine
end

section
/-! PROOF. A held command goes on with the operands it latched (10_state.md R43): what is left of it reads none of ARG0
to ARG3, so it does what the command would do, issued with those operands. -/

namespace Sys2Proof.Machine

/-! ### ARG0 to ARG3 as another state has them -/

def State.withArgs (s o : State) : State :=
  { s with arg0 := o.arg0, arg1 := o.arg1, arg2 := o.arg2, arg3 := o.arg3 }

def Exit.withArgs (o : State) : Exit → Exit
  | .done t => .done (t.withArgs o)
  | .trap t x => .trap (t.withArgs o) x

/-- A part of a command that neither reads nor writes ARG0 to ARG3. -/
def IgnoresArgs (part : State → Exit) : Prop := ∀ s o, part (s.withArgs o) = (part s).withArgs o

section
variable (s o : State)

@[simp] theorem State.withArgs_windowEnd : (s.withArgs o).windowEnd = s.windowEnd := rfl
@[simp] theorem State.withArgs_bytesPerSample : (s.withArgs o).bytesPerSample = s.bytesPerSample := rfl
@[simp] theorem State.withArgs_hazardAt (lo hi : Nat) : (s.withArgs o).hazardAt lo hi = s.hazardAt lo hi := rfl
@[simp] theorem State.withArgs_readHeader (off n : Nat) : (s.withArgs o).readHeader off n = s.readHeader off n := rfl
@[simp] theorem State.withArgs_skipEntryAt (e : Nat) : (s.withArgs o).skipEntryAt e = s.skipEntryAt e := rfl
@[simp] theorem State.withArgs_vSkipCount : (s.withArgs o).vSkipCount = s.vSkipCount := rfl
@[simp] theorem State.withArgs_vChannels : (s.withArgs o).vChannels = s.vChannels := rfl
@[simp] theorem State.withArgs_vOrder : (s.withArgs o).vOrder = s.vOrder := rfl

end

/-- A result with the operands as `s` has them is the exit with them so. -/
theorem keepArgs_close (s : State) (e : Exit) (op : BitVec 8) : keepArgs s (e.close op) = (e.withArgs s).close op := by
  cases e <;> rfl

/-- What is left of a command that ignores the operands is what the command does, issued with any operands with which
its own part comes to that. -/
theorem IgnoresArgs.close_eq_keepArgs {part : State → Exit} (hpart : IgnoresArgs part) {i : Instr} {s u v : State}
    (hexec : exec i v = (part v).close (opcode i)) (hv : v.withArgs s = u) :
    (part u).close (opcode i) = keepArgs s (exec i v) := by
  rw [hexec, keepArgs_close, ← hpart, hv]

/-- A choice by a condition that does not read the operands. -/
theorem IgnoresArgs.ite {c : State → Prop} [∀ s, Decidable (c s)] {part other : State → Exit}
    (hc : ∀ s o : State, c (s.withArgs o) ↔ c s) (hpart : IgnoresArgs part) (hother : IgnoresArgs other) :
    IgnoresArgs fun s => if c s then part s else other s := by
  intro s o
  by_cases h : c s
  · simpa only [if_pos h, if_pos ((hc s o).mpr h)] using hpart s o
  · simpa only [if_neg h, if_neg (mt (hc s o).mp h)] using hother s o

/-! ### The parts that are left of a held command -/

theorem done_ignoresArgs : IgnoresArgs .done := fun _ _ => rfl

theorem setSourceFinish_ignoresArgs (id ssize : Word) : IgnoresArgs (setSourceFinish id ssize) := fun _ _ => rfl

theorem State.discardWindow_ignoresArgs (p : Int) (h : Held) {rest : State → Exit} (hrest : IgnoresArgs rest) :
    IgnoresArgs fun s => s.discardWindow p h rest :=
  .ite (fun _ _ => .rfl) hrest (.ite (fun _ _ => .rfl) (fun s o => hrest (s.dropSamples (s.discardCount p)) o)
    fun _ _ => rfl)

theorem appendTail_ignoresArgs (wlen : Int) : IgnoresArgs (appendTail wlen) := by
  refine .ite (fun _ _ => .rfl) (fun _ _ => rfl) (.ite (fun _ _ => .rfl) (fun _ _ => rfl) fun s o => ?_)
  simp only [State.withArgs_windowEnd, State.withArgs_bytesPerSample, State.withArgs_hazardAt]
  split <;> rfl

theorem appendCompacting_ignoresArgs (wlen : Int) : IgnoresArgs (appendCompacting wlen) := fun s o =>
  State.discardWindow_ignoresArgs (s.writePos.toInt + roundDown s.readCursor.toInt s.granularity) (.append wlen)
    (appendTail_ignoresArgs wlen) s o

theorem findSkipEntry_withArgs (s o : State) (target n e : Nat) :
    findSkipEntry (s.withArgs o) target n e = findSkipEntry s target n e := by
  induction n generalizing e with
  | zero => rfl
  | succ n ih => simp only [findSkipEntry, State.withArgs_readHeader, State.withArgs_skipEntryAt, ih]

theorem restoreSkipEntry_ignoresArgs (offset : Int) (e : Nat) : IgnoresArgs (restoreSkipEntry offset e) := by
  intro s o
  simp only [restoreSkipEntry, State.withArgs_readHeader, State.withArgs_skipEntryAt, State.withArgs_vChannels,
    State.withArgs_vOrder]
  split <;> rfl

theorem vseekFinish_ignoresArgs (offset : Int) : IgnoresArgs (vseekFinish offset) := by
  refine .ite (fun _ _ => .rfl) (fun _ _ => rfl) fun s o => ?_
  simp only [findSkipEntry_withArgs, State.withArgs_vSkipCount]
  split
  · rfl
  · rfl
  · split
    · rfl
    · exact restoreSkipEntry_ignoresArgs _ _ s o

/-! ### The commands past their checks -/

theorem exec_setSource_drained {s : State} (hl : s.lifeState = .ready) (hread : s.inRead = false)
    (hflushed : s.flushed = true) (hmod : s.arg1.toNat % 16 = 0) (hle : s.arg1.toNat ≤ s.stateReserved.toNat)
    (hqueue : s.queue = []) :
    exec .setSource s = (setSourceFinish s.arg0 s.arg1 s).close (opcode .setSource) := by
  rw [exec_host rfl hl hread, bodyOf]
  simp only [setSourceBody]
  rw [if_neg (not_not.mpr hflushed), if_neg (not_not.mpr hmod), if_neg (Nat.not_lt.mpr hle), s.drained_iff.mpr hqueue,
    State.holdUntil_true]

theorem exec_discard_nonneg {s : State} (hl : s.lifeState = .ready) (hread : s.inRead = false)
    (h : 0 ≤ s.arg0.toInt) :
    exec .discard s
      = (s.discardWindow s.arg0.toInt (.discard s.arg0.toInt) .done).close (opcode .discard) := by
  rw [exec_host rfl hl hread, bodyOf]
  exact congrArg _ (if_neg (not_lt.mpr h))

theorem exec_append_compacts {s : State} (hl : s.lifeState = .ready) (hread : s.inRead = true) (h : 0 ≤ s.arg0.toInt)
    (hcap : (s.capacity : Int) < s.writeLen.toInt + s.arg0.toInt) :
    exec .append s = (appendCompacting s.arg0.toInt s).close (opcode .append) := by
  rw [exec_source rfl hl hread, bodyOf]
  simp only [appendBody]
  rw [if_neg (not_lt.mpr h), if_pos hcap]

theorem exec_vseek_drained {s : State} (hl : s.lifeState = .ready) (hread : s.inRead = true) (h : 0 ≤ s.arg0.toInt)
    (hopen : s.vOpen = true) (hqueue : s.queue = []) :
    exec .vseek s = (vseekFinish s.arg0.toInt s).close (opcode .vseek) := by
  rw [exec_source rfl hl hread, bodyOf]
  simp only [vseekBody]
  rw [if_neg (not_lt.mpr h), if_neg (by simp [hopen]), s.drained_iff.mpr hqueue, State.holdUntil_true]

/-! ### The control path's step -/

theorem State.fitU32_ofNat (s : State) (site : FreeSite) {v : Nat} (hv : v < 2 ^ 32) :
    s.fitU32 site v = BitVec.ofNat 32 v := by
  rw [State.fitU32, if_pos ⟨by omega, by omega⟩, BitVec.ofInt_natCast]

/-- A control path that has a command held, its condition met, lets it go on. -/
theorem controlStep_held {s : State} {h : Held} (hl : s.lifeState = .ready) (hheld : s.held = some h)
    (hready : s.heldReady h = true) (idle : State → Result) : controlStep idle s = resumeHeld h s.release := by
  have hwork : s.controlWork = .held h := by simp [State.controlWork, hl, hheld]
  rw [controlStep, hwork]
  exact if_pos hready

/-- Where the control path's step is next, a held command whose condition is met goes on. -/
theorem step_held {s : State} {rest : List Move} {h : Held} (hl : s.lifeState = .ready)
    (hnext : s.controlPathIsNext rest) (hheld : s.held = some h) (hready : s.heldReady h = true) :
    step s = resumeHeld h (s.afterMove rest).release := by
  rcases hnext with ⟨hin, rfl⟩ | hin
  · have hmove : ({ s with freeTick := s.freeTick + 1 } : State) = s.afterMove [] := by
      cases s
      cases hin
      rfl
    rw [step_idle hin, hmove]
    exact controlStep_held (s := s.afterMove []) hl hheld hready _
  · exact (step_control hin).trans (controlStep_held (s := s.afterMove rest) hl hheld hready _)

/-- Settles O60: what is left of SET_SOURCE, DISCARD, APPEND and VSEEK ignores ARG0 to ARG3. -/
theorem heldCommandsGoOnWithLatchedOperands : Obligations.HeldCommandsGoOnWithLatchedOperands := by
  intro s rest hl hnext
  have hstep {h : Held} (hheld : s.held = some h) (hready : s.heldReady h = true) := step_held hl hnext hheld hready
  refine ⟨?_, ?_, ?_, ?_, ?_, ?_⟩
  · intro id ssize hheld hqueue hread hflushed hmod hle
    rw [hstep hheld (s.drained_iff.mpr hqueue)]
    exact (setSourceFinish_ignoresArgs id ssize).close_eq_keepArgs
      (exec_setSource_drained (s := { s.afterMove rest with held := none, arg0 := id, arg1 := ssize }) hl hread hflushed
        hmod hle hqueue) rfl
  · intro w hheld hqueue hread hw
    rw [hstep hheld (s.drained_iff.mpr hqueue)]
    exact (State.discardWindow_ignoresArgs _ _ done_ignoresArgs).close_eq_keepArgs
      (exec_discard_nonneg (s := { s.afterMove rest with held := none, arg0 := w }) hl hread hw) rfl
  · intro w hheld hqueue hread hw hcap
    rw [hstep hheld (s.drained_iff.mpr hqueue)]
    exact (appendCompacting_ignoresArgs w.toInt).close_eq_keepArgs
      (exec_append_compacts (s := { s.afterMove rest with held := none, arg0 := w }) hl hread hw hcap) rfl
  · intro w hheld hqueue hread hw hopen
    rw [hstep hheld (s.drained_iff.mpr hqueue)]
    exact (vseekFinish_ignoresArgs w.toInt).close_eq_keepArgs
      (exec_vseek_drained (s := { s.afterMove rest with held := none, arg0 := w }) hl hread hw hopen hqueue) rfl
  · intro c hheld hqueue hbase
    rw [hstep hheld (s.drained_iff.mpr hqueue), ← (s.afterMove rest).release.fitU32_ofNat .skipBase hbase]
    rfl
  · intro j hheld hroom
    rw [hstep hheld (decide_eq_true hroom)]
    rfl

end Sys2Proof.Machine
end

section
/-! PROOF. The consumer's and the host's accesses: misshapen REG accesses (20_memory.md R92), and a consumer read inside
STORAGE (R105). -/

namespace Sys2Proof.Machine

/-! ### Misshapen REG accesses -/

theorem badAccess_iff (offset : BitVec 8) (width : Nat) :
    badAccess offset width = true ↔ width ≠ 32 ∨ offset.toNat % 4 ≠ 0 := by
  simp [badAccess]

theorem State.regRead_misshapen {s : State} {offset : BitVec 8} {width : Nat} (hl : s.lifeState ≠ .faulted)
    (hbad : badAccess offset width = true) :
    s.regRead offset width = State.raise { s with hostWord := none } noOp ⟨.badReg, offset.toNat, width⟩ := by
  rw [State.regRead, if_pos hbad]
  exact if_neg hl

theorem regWrite_misshapen {s : State} {offset : BitVec 8} {width : Nat} (hl : s.lifeState ≠ .faulted)
    (hbad : badAccess offset width = true) (value : Word) :
    regWrite offset width value s = .next (s.raise noOp ⟨.badReg, offset.toNat, width⟩) := by
  rw [regWrite, if_pos hbad]
  exact congrArg _ (if_neg hl)

/-- Settles O10: a REG access is checked for its shape before the register map is looked at. -/
theorem misshapenRegisterAccessFaults : Obligations.MisshapenRegisterAccessFaults := by
  intro s offset width rest hl hshape
  have hbad : badAccess offset width = true := (badAccess_iff offset width).mpr hshape
  refine ⟨fun hin => ?_, fun v hin hw => ?_⟩
  · exact (step_regRead hin).trans (congrArg _ (State.regRead_misshapen (s := s.afterMove rest) hl hbad))
  · exact (step_regWrite hin hw).trans (regWrite_misshapen (s := s.afterMove rest) hl hbad v)

/-! ### Consumer reads inside STORAGE -/

theorem rangesOverlap_iff (lo hi lo' hi' : Nat) : rangesOverlap lo hi lo' hi' = true ↔ max lo lo' < min hi hi' :=
  decide_eq_true_iff

theorem State.hazardAt_eq_none_iff_noHazard (s : State) (lo hi : Nat) :
    s.hazardAt lo hi = none ↔ s.noHazard lo hi := by
  simp only [State.hazardAt_eq_none, State.noHazard, ← rangesOverlap_iff, Bool.not_eq_true]

/-- A hazard names a pending job whose range overlaps the access (20_memory.md R104). -/
theorem State.exists_job_of_hazardAt {s : State} {lo hi start : Nat} (h : s.hazardAt lo hi = some start) :
    ∃ j ∈ s.queue, max j.lo lo < min j.hi hi ∧ j.lo = start := by
  obtain ⟨j, hfind, hstart⟩ := Option.map_eq_some_iff.mp h
  have hover : rangesOverlap j.lo j.hi lo hi = true := by simpa using List.find?_some hfind
  exact ⟨j, List.mem_of_find?_eq_some hfind, (rangesOverlap_iff ..).mp hover, hstart⟩

/-- A range cannot be read exactly when one of its bytes holds no value. -/
theorem Memory.readBytes_eq_none (m : List Host.Cell) (n a : Nat) :
    Memory.readBytes m a n = none ↔ ∃ k < n, Memory.read m (a + k) = none := by
  induction n generalizing a with
  | zero => simp [Memory.readBytes]
  | succ n ih =>
    have hcons : Memory.readBytes m a (n + 1) = none
        ↔ Memory.read m a = none ∨ Memory.readBytes m (a + 1) n = none := by
      rw [Memory.readBytes]
      cases Memory.read m a <;> cases Memory.readBytes m (a + 1) n <;> simp
    rw [hcons, ih, Nat.exists_lt_succ_left]
    simp only [Nat.add_zero, Nat.add_assoc, Nat.add_comm 1]

section
variable {s : State} {off n : Nat} (hl : s.lifeState ≠ .faulted) (hin : off + n ≤ s.storageSize)
include hl hin

theorem State.consumerRead_of_hazard {lo : Nat} (h : s.hazardAt off (off + n) = some lo) :
    s.consumerRead off n = State.raise { s with hostBytes := none } noOp ⟨.hazard, off, lo⟩ := by
  simp [State.consumerRead, hl, hin, h]

theorem State.consumerRead_of_unwritten (hfree : s.noHazard off (off + n))
    (h : Memory.readBytes s.storage off n = none) :
    s.consumerRead off n = State.raise { s with hostBytes := none } noOp ⟨.unwritten, off, n⟩ := by
  simp [State.consumerRead, hl, hin, (s.hazardAt_eq_none_iff_noHazard _ _).mpr hfree, h]

theorem State.consumerRead_of_bytes {bs : List Byte} (hfree : s.noHazard off (off + n))
    (h : Memory.readBytes s.storage off n = some bs) : s.consumerRead off n = { s with hostBytes := some bs } := by
  simp [State.consumerRead, hl, hin, (s.hazardAt_eq_none_iff_noHazard _ _).mpr hfree, h]

end

/-- Settles O12: past the range check the read goes by the hazard check, then by the bytes. -/
theorem consumerReadReturnsOnlyFinishedBytes : Obligations.ConsumerReadReturnsOnlyFinishedBytes := by
  intro s off n rest hl hmove hin
  rw [step_consumerRead hmove]
  refine ⟨fun hhazard => ?_, fun hfree hhole => ?_, fun hfree hfull => ?_⟩
  · have hsome : s.hazardAt off (off + n) ≠ none := mt (s.hazardAt_eq_none_iff_noHazard _ _).mp hhazard
    obtain ⟨lo, hlo⟩ := Option.ne_none_iff_exists'.mp hsome
    obtain ⟨j, hj, hover, rfl⟩ := State.exists_job_of_hazardAt hlo
    exact ⟨j, hj, hover, congrArg _ (State.consumerRead_of_hazard (s := s.afterMove rest) hl hin hlo)⟩
  · exact congrArg _ (State.consumerRead_of_unwritten (s := s.afterMove rest) hl hin hfree
      ((Memory.readBytes_eq_none s.storage n off).mpr hhole))
  · have hsome : Memory.readBytes s.storage off n ≠ none := fun hnone =>
      have ⟨k, hk, hread⟩ := (Memory.readBytes_eq_none s.storage n off).mp hnone
      hfull k hk hread
    obtain ⟨bs, hbs⟩ := Option.ne_none_iff_exists'.mp hsome
    obtain ⟨hlen, hbytes⟩ := (Memory.readBytes_eq_some s.storage n off bs).mp hbs
    exact ⟨bs, hlen, hbytes, congrArg _ (State.consumerRead_of_bytes (s := s.afterMove rest) hl hin hfree hbs)⟩

end Sys2Proof.Machine
end

section
/-! PROOF. What the offload engine's step can do, said once (41_vadpcm.md R250, R252): nothing, a fault, or the
retirement of the oldest job, whose bytes do not depend on STORAGE. -/

namespace Sys2Proof.Machine

/-! ### The decoder of a job -/

/-- `s` with `m` as the contents of STORAGE. -/
def State.withStorage (s : State) (m : List Host.Cell) : State := { s with storage := m }

theorem State.withStorage_self (s : State) : s.withStorage s.storage = s := rfl
@[simp] theorem State.withStorage_history (s : State) (m : List Host.Cell) :
    (s.withStorage m).history = s.history := rfl
@[simp] theorem State.withStorage_vChannels (s : State) (m : List Host.Cell) :
    (s.withStorage m).vChannels = s.vChannels := rfl

theorem decodeChannels_withStorage (P : Predictor) (s : State) (m : List Host.Cell) (hists : List (List Half))
    (input : List Byte) :
    decodeChannels P (s.withStorage m) hists input = decodeChannels P s hists input := by
  induction hists generalizing input with
  | nil => rfl
  | cons h rest ih =>
    unfold decodeChannels
    rw [ih]
    rfl

/-- The decoder of a job reads HEADER and the configuration, and no STORAGE byte. -/
theorem decodeFrames_withStorage (P : Predictor) (s : State) (m : List Host.Cell) (n : Nat)
    (hist : List (List Half)) (input : List Byte) :
    decodeFrames P (s.withStorage m) n hist input = decodeFrames P s n hist input := by
  induction n generalizing hist input with
  | zero => rfl
  | succ n ih =>
    simp only [decodeFrames, decodeChannels_withStorage, ih, State.withStorage_vChannels]

theorem decodeChannels_length {P : Predictor} {s : State} {hists : List (List Half)} {input : List Byte}
    {xss hists' : List (List Half)} (h : decodeChannels P s hists input = .ok (xss, hists')) :
    xss.length = hists.length := by
  induction hists generalizing input xss hists' with
  | nil =>
    cases h
    rfl
  | cons hist rest ih =>
    unfold decodeChannels at h
    split at h
    · cases h
    · split at h
      · cases h
      next hrest =>
        cases h
        simp [ih hrest]

/-- One frame of each channel is 16 samples of 2 bytes. -/
theorem interleave_length (xss : List (List Half)) : (interleave xss).length = 32 * xss.length := by
  simp only [interleave, halfBytes, List.length_flatMap, List.length_cons, List.length_nil, List.map_const',
    List.sum_replicate, List.length_range, smul_eq_mul]
  omega

theorem decodeFrames_length {P : Predictor} {s : State} {n : Nat} {hist hist' : List (List Half)}
    {input out : List Byte} (h : decodeFrames P s n hist input = .ok (hist', out)) :
    out.length = n * 32 * s.vChannels.toNat := by
  induction n generalizing hist input hist' out with
  | zero =>
    cases h
    simp
  | succ n ih =>
    unfold decodeFrames at h
    split at h
    · cases h
    next hframe =>
      split at h
      · cases h
      next hrest =>
        cases h
        have hchannels := decodeChannels_length hframe
        simp only [channelHistories, List.length_map, List.length_range] at hchannels
        rw [List.length_append, interleave_length, hchannels, ih hrest]
        ring

/-! ### A retirement -/

/-- `s` after the retirement of its oldest job: the bytes `out` at `dst`, the other jobs, and V_HIST. -/
def State.retired (s : State) (rest : List Job) (hist : Option (List (List Half))) (dst : Nat) (out : List Byte) :
    State :=
  { s with storage := Memory.writeBytes s.storage dst out, queue := rest, vHist := hist }

theorem State.storeBytes_inside {s : State} {off : Nat} {bs : List Byte}
    (hin : bs = [] ∨ off + bs.length ≤ s.storageSize) :
    s.storeBytes off bs = .done { s with storage := Memory.writeBytes s.storage off bs } :=
  if_neg fun ⟨hne, hout⟩ => hin.elim hne (Nat.not_le.mpr hout)

/-- A retirement faults with nothing changed, or writes the job's output, which is the same over any STORAGE. -/
theorem retireJob_cases (P : Predictor) (j : Job) (rest : List Job) (s : State) :
    (∃ x, retireJob P j rest s = .trap s x)
    ∨ ∃ hist out, out.length = j.frames * 32 * s.vChannels.toNat ∧ ∀ m,
        retireJob P j rest (s.withStorage m) = .done ((s.withStorage m).retired rest hist j.dst out) := by
  by_cases hzero : j.frames = 0
  · exact .inr ⟨s.vHist, [], by simp [hzero], fun m => if_pos hzero⟩
  cases hdecode : decodeFrames P s j.frames s.history j.input with
  | error x => exact .inl ⟨x, by rw [retireJob, if_neg hzero, hdecode]⟩
  | ok decoded =>
    obtain ⟨hist, out⟩ := decoded
    have hcommit (m : List Host.Cell) :
        retireJob P j rest (s.withStorage m) = (s.withStorage m).commitJob j rest hist out := by
      rw [retireJob, if_neg hzero, decodeFrames_withStorage, State.withStorage_history, hdecode]
    rcases s.storeBytes_cases j.dst out with ⟨hin, -⟩ | ⟨-, htrap⟩
    · refine .inr ⟨some hist, out, decodeFrames_length hdecode, fun m => ?_⟩
      rw [hcommit m, State.commitJob, State.storeBytes_inside (s := s.withStorage m) hin]
      rfl
    · exact .inl ⟨_, (hcommit s.storage).trans (congrArg (Exit.andThen · _) htrap)⟩

/-! ### The engine's step -/

theorem engineStep_of_faulted {s : State} (hl : s.lifeState = .faulted) : engineStep s = .next s := if_pos hl

theorem engineStep_of_drained {s : State} (hqueue : s.queue = []) : engineStep s = .next s := by
  simp [engineStep, engineStepWith, hqueue]

theorem engineStep_of_job {s : State} {j : Job} {rest : List Job} (hl : s.lifeState ≠ .faulted)
    (hqueue : s.queue = j :: rest) :
    engineStep s = (retireJob ownPredictor j rest s).close retirementOp := by
  simp [engineStep, engineStepWith, hl, hqueue]

/-- The engine's step changes nothing, faults, or retires the oldest job as it would over any STORAGE. -/
theorem engineStep_cases (s : State) :
    ((s.lifeState = .faulted ∨ s.queue = []) ∧ ∀ m, engineStep (s.withStorage m) = .next (s.withStorage m))
    ∨ (s.lifeState ≠ .faulted ∧ s.queue ≠ [] ∧ ∃ x, engineStep s = .next (s.raise retirementOp x))
    ∨ (s.lifeState ≠ .faulted ∧ ∃ j rest hist out, s.queue = j :: rest
        ∧ out.length = j.frames * 32 * s.vChannels.toNat
        ∧ ∀ m, engineStep (s.withStorage m) = .next ((s.withStorage m).retired rest hist j.dst out)) := by
  by_cases hl : s.lifeState = .faulted
  · exact .inl ⟨.inl hl, fun m => engineStep_of_faulted hl⟩
  cases hqueue : s.queue with
  | nil => exact .inl ⟨.inr rfl, fun m => engineStep_of_drained hqueue⟩
  | cons j rest =>
    rcases retireJob_cases ownPredictor j rest s with ⟨x, htrap⟩ | ⟨hist, out, hlen, hdone⟩
    · exact .inr (.inl ⟨hl, List.cons_ne_nil j rest, x, (engineStep_of_job hl hqueue).trans (congrArg _ htrap)⟩)
    · refine .inr (.inr ⟨hl, j, rest, hist, out, rfl, hlen, fun m => ?_⟩)
      exact (engineStep_of_job (s := s.withStorage m) hl hqueue).trans (congrArg _ (hdone m))

/-! ### The statements about a retirement -/

/-- Settles O37: each way the engine's step can end well writes the same bytes over any STORAGE. -/
theorem retirementReadsNoStorage : Obligations.RetirementReadsNoStorage := by
  intro s t m h hl
  rcases engineStep_cases s with ⟨-, hstep⟩ | ⟨-, -, x, hstep⟩ | ⟨-, j, rest, hist, out, -, -, hstep⟩
  · cases (hstep s.storage).symm.trans h
    exact ⟨0, [], rfl, hstep m⟩
  · cases hstep.symm.trans h
    exact absurd rfl hl
  · cases (hstep s.storage).symm.trans h
    exact ⟨j.dst, out, rfl, hstep m⟩

theorem State.read_retired_outside (s : State) (rest : List Job) (hist : Option (List (List Half))) {dst a : Nat}
    {out : List Byte} (ha : ¬ (dst ≤ a ∧ a < dst + out.length)) :
    Memory.read (s.retired rest hist dst out).storage a = Memory.read s.storage a := by
  rw [State.retired, Memory.read_writeBytes, if_neg ha]

/-- Settles O58: by what the engine's step can do; the job's output is as long as its frames. -/
theorem frameOfJobRetirement : Obligations.FrameOfJobRetirement := by
  intro s t h
  rcases engineStep_cases s with
    ⟨hidle, hstep⟩ | ⟨-, hqueue, x, hstep⟩ | ⟨hl, j, rest, hist, out, hqueue, hlen, hstep⟩
  · cases (hstep s.storage).symm.trans h
    have hempty (hl : s.lifeState ≠ .faulted) : s.queue = [] := hidle.resolve_left hl
    refine ⟨rfl, fun hl => ?_, fun j rest hcons hl => ?_, fun _ => rfl, fun _ _ => rfl⟩
    · rw [State.withStorage_self, hempty hl]
      rfl
    · cases (hempty hl).symm.trans hcons
  · cases hstep.symm.trans h
    exact ⟨rfl, fun hl => absurd rfl hl, fun _ _ _ hl => absurd rfl hl, fun _ => rfl,
      fun _ hnil => absurd hnil hqueue⟩
  · cases (hstep s.storage).symm.trans h
    refine ⟨rfl, fun _ => ?_, fun i others hcons _ => ?_, fun hf => absurd hf hl, fun _ hnil => ?_⟩
    · rw [hqueue]
      rfl
    · cases hqueue.symm.trans hcons
      refine ⟨fun a ha => s.read_retired_outside rest hist (hlen ▸ ha), fun hzero => ?_⟩
      have hnone : out = [] := List.length_eq_zero_iff.mp (by simpa [hzero] using hlen)
      rw [hnone]
      rfl
    · cases hqueue.symm.trans hnil

/-! ### DRAIN -/

theorem core_run_succ {s t : State} (h : step s = .next t) (k : Nat) :
    Host.Core.run core (k + 1) s = Host.Core.run core k t := by
  have h' : core.step s = .next t := h
  simp only [Host.Core.run, h']

/-- While a held command waits and no move is listed, the step is the engine's (20_memory.md R101). -/
theorem step_held_waiting {s : State} {h : Held} (hl : s.lifeState = .ready) (hheld : s.held = some h)
    (hin : s.inputs = []) (hwait : s.heldReady h = false) :
    step s = engineStep { s with freeTick := s.freeTick + 1 } := by
  have hwork : State.controlWork { s with freeTick := s.freeTick + 1 } = .held h := by
    simp [State.controlWork, hl, hheld]
  rw [step_idle hin, controlStep, hwork]
  exact if_neg (Bool.eq_false_iff.mp hwait)

/-- Settles O25, by induction on the pending jobs: each step while DRAIN waits retires the oldest job or faults. -/
theorem drainEndsByTheEngineAlone : Obligations.DrainEndsByTheEngineAlone := by
  intro s
  induction hjobs : s.queue generalizing s with
  | nil =>
    intro hl hheld hin
    have hstep := step_held hl (.inl ⟨hin, rfl⟩) hheld (s.drained_iff.mpr hjobs)
    exact ⟨1, _, Nat.le_refl _, core_run_succ hstep 0, .inl ⟨rfl, hjobs, hl⟩⟩
  | cons j rest ih =>
    intro hl hheld hin
    have hwait : s.heldReady .drain = false := by simp [State.heldReady, State.drained, hjobs]
    have hstep := step_held_waiting hl hheld hin hwait
    rcases engineStep_cases { s with freeTick := s.freeTick + 1 } with
      ⟨hidle, -⟩ | ⟨-, -, x, hfault⟩ | ⟨-, i, others, hist, out, hcons, -, hretire⟩
    · simp [hl, hjobs] at hidle
    · exact ⟨1, _, by simp, core_run_succ (hstep.trans hfault) 0, .inr rfl⟩
    · cases hjobs.symm.trans hcons
      obtain ⟨k, t, hk, hrun, hend⟩ :=
        ih (s := State.retired { s with freeTick := s.freeTick + 1 } rest hist j.dst out) rfl hl hheld hin
      exact ⟨k + 1, t, Nat.succ_le_succ hk, (core_run_succ (hstep.trans (hretire s.storage)) k).trans hrun, hend⟩

end Sys2Proof.Machine
end

section
/-! PROOF. The encoding and the control path (30_encoding.md): the decoder is the inverse of the encoder, a step issues
the written word, and the checks of R125 and R126. -/

namespace Sys2Proof

/-! ### The decoder -/

theorem decodeOpcode_opcode (i : Instr) : decodeOpcode (opcode i) = some i := by
  cases i <;> rfl

theorem decodeOpcode_eq_some_iff (op : BitVec 8) (i : Instr) : decodeOpcode op = some i ↔ op = opcode i := by
  refine ⟨fun h => ?_, fun h => h ▸ decodeOpcode_opcode i⟩
  unfold decodeOpcode at h
  split at h
  case h_19 => cases h
  all_goals
    cases h
    exact BitVec.eq_of_toNat_eq ‹_›

theorem mem_listedOpcodes_iff (op : BitVec 8) : op ∈ listedOpcodes ↔ ∃ i, op = opcode i := by
  constructor
  · have hall : ∀ x ∈ listedOpcodes, (decodeOpcode x).isSome = true := by decide
    intro hop
    obtain ⟨i, hi⟩ := Option.isSome_iff_exists.mp (hall op hop)
    exact ⟨i, (decodeOpcode_eq_some_iff op i).mp hi⟩
  · rintro ⟨i, rfl⟩
    cases i <;> decide

/-- The two fields of a command word determine it (30_encoding.md R120). -/
theorem eq_setWidth_iff_fields (w : Word) (op : BitVec 8) :
    w = op.setWidth 32 ↔ w.extractLsb' 8 24 = 0 ∧ w.extractLsb' 0 8 = op := by
  simp only [← BitVec.toNat_inj, BitVec.toNat_setWidth, BitVec.extractLsb'_toNat, Nat.shiftRight_eq_div_pow,
    BitVec.ofNat_eq_ofNat, BitVec.toNat_ofNat]
  have hw := w.isLt
  have hop := op.isLt
  omega

theorem decode_eq_ok_iff (w : Word) (i : Instr) : decode w = .ok i ↔ w = encode i := by
  rw [encode, eq_setWidth_iff_fields, ← decodeOpcode_eq_some_iff]
  unfold decode
  by_cases hrsv : w.extractLsb' 8 24 = 0
  · rw [if_neg (not_not.mpr hrsv)]
    cases decodeOpcode (w.extractLsb' 0 8) <;> simp [hrsv]
  · simp only [if_pos hrsv, hrsv, reduceCtorEq, false_and]

theorem exists_decode_eq_error_iff (w : Word) : (∃ e, decode w = .error e) ↔ ∀ i, w ≠ encode i := by
  simp only [ne_eq, ← decode_eq_ok_iff]
  cases decode w <;> simp

@[simp] theorem decode_encode (i : Instr) : decode (encode i) = .ok i := (decode_eq_ok_iff _ i).mpr rfl

/-- Settles O1: the decoder rejects exactly what is no encoding, that is, where one of the two fields is wrong. -/
theorem decodeAcceptsExactlyTheEncodings : Obligations.DecodeAcceptsExactlyTheEncodings := by
  refine fun w => ⟨decode_eq_ok_iff w, (exists_decode_eq_error_iff w).trans ?_⟩
  simp only [encode, ne_eq, eq_setWidth_iff_fields, mem_listedOpcodes_iff, not_and, not_exists, imp_iff_not_or,
    forall_or_left]

/-- Settles O2: the accepted words are encodings; the reserved ones and VSTAGE's table word are evaluated. -/
theorem writtenOutWordsDecode : Obligations.WrittenOutWordsDecode :=
  ⟨decode_encode .init, decode_encode .get, decode_encode .append, decode_encode .scopy, decode_encode .vjob,
    decode_encode .hdecode, by decide, by decide, by decide⟩

end Sys2Proof

namespace Sys2Proof.Machine

/-! ### The command word of a step -/

theorem issueWord_faulted {s : State} (w : Word) (hl : s.lifeState = .faulted) : issueWord w s = .next s := by
  rw [issueWord, if_pos hl]

/-- An illegal word faults with its own low byte as FAULT_OP (30_encoding.md R126). -/
theorem issueWord_illegal {w : Word} {e : DecodeError} {s : State} (hl : s.lifeState ≠ .faulted)
    (hw : decode w = .error e) :
    issueWord w s = .next (s.raise (w.extractLsb' 0 8) ⟨.illegalCommand, w.toNat, 0⟩) := by
  rw [issueWord, if_neg hl, hw]

theorem issueWord_command {w : Word} {i : Instr} (s : State) (hw : decode w = .ok i) : issueWord w s = exec i s := by
  by_cases hl : s.lifeState = .faulted
  · rw [issueWord_faulted w hl, exec_faulted i hl]
  · rw [issueWord, if_neg hl, hw]

/-- While CLOSE is held every REG write waits (70_reset_and_hazards.md R392). -/
theorem State.writeWaits_of_held_close {s : State} (hl : s.lifeState ≠ .faulted) (hheld : s.held = some .close)
    (offset : BitVec 8) : s.writeWaits offset = true := by
  simp [State.writeWaits, State.controlWork, hl, hheld]

/-- Settles O3: by the two outcomes of the wait; a held CLOSE makes every write wait. -/
theorem stepRunsTheWrittenCommand : Obligations.StepRunsTheWrittenCommand := by
  refine ⟨fun s w rest i hmove hdec => ⟨fun hgo => ?_, step_waits hmove⟩,
    fun s offset _ _ _ hmove hl hheld => ?_⟩
  · exact (step_command hmove hgo).trans (issueWord_command _ hdec)
  · exact step_waits hmove (State.writeWaits_of_held_close hl hheld offset)

/-! ### The common checks -/

theorem exec_notInitialised {i : Instr} {s : State} (hi : i ≠ .init) (hl : s.lifeState = .uninit) :
    exec i s = .next (s.raise (opcode i) ⟨.notInitialised, (opcode i).toNat, 0⟩) := by
  rw [exec_eq_issue, issue, if_neg (by rw [hl]; decide), if_pos ⟨hl, hi⟩]

theorem exec_reentrant {i : Instr} {s : State} (hi : commandClass i = .host) (hl : s.lifeState = .ready)
    (hread : s.inRead = true) : exec i s = .next (s.raise (opcode i) ⟨.reentrant, (opcode i).toNat, 0⟩) := by
  simp [exec_eq_issue, issue, hl, hi, hread]

theorem exec_notInRead {i : Instr} {s : State} (hi : commandClass i = .source) (hl : s.lifeState = .ready)
    (hread : s.inRead = false) : exec i s = .next (s.raise (opcode i) ⟨.notInRead, (opcode i).toNat, 0⟩) := by
  simp [exec_eq_issue, issue, hl, hi, hread]

theorem commandClass_eq_any_iff (i : Instr) : commandClass i = .any ↔ i = .drain := by
  cases i <;> decide

theorem exec_drain_drained {s : State} (hl : s.lifeState = .ready) (hqueue : s.queue = []) :
    exec .drain s = .next s := by
  rw [exec_drain hl, drainBody, s.drained_iff.mpr hqueue, State.holdUntil_true, Exit.close_done]

theorem exec_drain_waits {s : State} (hl : s.lifeState = .ready) (hqueue : s.queue ≠ []) :
    exec .drain s = .next { s with held := some .drain } := by
  rw [exec_drain hl, drainBody, Bool.eq_false_iff.mpr (mt s.drained_iff.mp hqueue), State.holdUntil_false,
    Exit.close_done]

/-- Settles O4: an illegal word fails check 2, an early command check 3; check 1 lets nothing through. -/
theorem reservedAndEarlyCommandsFault : Obligations.ReservedAndEarlyCommandsFault := by
  rintro s w rest ⟨hmove, hgo⟩
  rw [step_command hmove hgo]
  refine ⟨fun hl hw => ?_, fun hl i hi hw => ?_, fun hl => issueWord_faulted w hl⟩
  · obtain ⟨e, he⟩ := (exists_decode_eq_error_iff w).mpr hw
    exact issueWord_illegal hl he
  · exact (issueWord_command _ (hw ▸ decode_encode i)).trans (exec_notInitialised hi hl)

/-- Settles O5: the class check of READY, and DRAIN's hold. -/
theorem commandClassesAreChecked : Obligations.CommandClassesAreChecked := fun _ hl =>
  ⟨fun _ hi => exec_reentrant hi hl, fun _ hi => exec_notInRead hi hl, commandClass_eq_any_iff,
    exec_drain_drained hl, exec_drain_waits hl⟩

end Sys2Proof.Machine
end

section
/-! PROOF. The REG window (30_encoding.md R127): the bit fields of its computed registers, and what a read or a write of
each offset does. -/

namespace Sys2Proof.Machine

/-! ### Bit fields of a word -/

theorem toNat_extractLsb'_ofNat {n lo len : Nat} (hfit : lo + len ≤ 32) :
    ((BitVec.ofNat 32 n).extractLsb' lo len).toNat = n / 2 ^ lo % 2 ^ len := by
  rw [BitVec.extractLsb'_toNat, BitVec.toNat_ofNat, Nat.shiftRight_eq_div_pow,
    show 32 = lo + (32 - lo) by omega, pow_add, Nat.mod_mul_right_div_self]
  exact Nat.mod_mod_of_dvd _ (pow_dvd_pow 2 (by omega))

theorem extractLsb'_ofNat_eq {n lo len : Nat} {v : BitVec len} (hfit : lo + len ≤ 32)
    (h : n / 2 ^ lo % 2 ^ len = v.toNat) : (BitVec.ofNat 32 n).extractLsb' lo len = v :=
  BitVec.eq_of_toNat_eq ((toNat_extractLsb'_ofNat hfit).trans h)

theorem extractLsb'_ofNat_eq_zero {n lo len : Nat} (hfit : lo + len ≤ 32) (h : n / 2 ^ lo % 2 ^ len = 0) :
    (BitVec.ofNat 32 n).extractLsb' lo len = 0 :=
  extractLsb'_ofNat_eq hfit (h.trans BitVec.toNat_zero.symm)

theorem getLsbD_ofNat_eq {n k : Nat} {b : Bool} (hfit : k < 32) (h : n / 2 ^ k % 2 = bitOf b) :
    (BitVec.ofNat 32 n).getLsbD k = b := by
  rw [BitVec.getLsbD_ofNat, Nat.testBit_eq_decide_div_mod_eq, h]
  cases b <;> simp [bitOf, hfit]

theorem bitOf_le_one (b : Bool) : bitOf b ≤ 1 := by
  cases b <;> decide

theorem State.emptyFlag_eq (s : State) : s.emptyFlag = decide (s.writeLen.toInt = 0) := by
  rw [State.emptyFlag, Bool.beq_eq_decide_eq]
  exact decide_eq_decide.mpr (BitVec.toInt_inj (y := 0)).symm

/-! ### The computed registers -/

theorem State.statusWord_fields (s : State) :
    s.statusWord.extractLsb' 0 2 = lifeCode s.lifeState
      ∧ s.statusWord.getLsbD 2 = s.inRead ∧ s.statusWord.getLsbD 3 = decide (s.writeLen.toInt = 0)
      ∧ s.statusWord.extractLsb' 4 4 = 0 ∧ s.statusWord.extractLsb' 8 8 = causeCode s.faultCause
      ∧ s.statusWord.extractLsb' 16 8 = s.faultOp
      ∧ (s.statusWord.extractLsb' 24 8).toNat = min s.queue.length 255 := by
  have hlife := (lifeCode s.lifeState).isLt
  have hread := bitOf_le_one s.inRead
  have hempty := bitOf_le_one s.emptyFlag
  have hcause := (causeCode s.faultCause).isLt
  have hop := s.faultOp.isLt
  have hcount : s.qcount = min s.queue.length 255 := rfl
  rw [← s.emptyFlag_eq]
  refine ⟨extractLsb'_ofNat_eq (by decide) ?_, getLsbD_ofNat_eq (by decide) ?_, getLsbD_ofNat_eq (by decide) ?_,
    extractLsb'_ofNat_eq_zero (by decide) ?_, extractLsb'_ofNat_eq (by decide) ?_,
    extractLsb'_ofNat_eq (by decide) ?_, (toNat_extractLsb'_ofNat (by decide)).trans ?_⟩
  all_goals omega

theorem State.bufConfigWord_fields (s : State) :
    s.bufConfigWord.extractLsb' 0 2 = s.wc ∧ s.bufConfigWord.getLsbD 2 = s.widthSet
      ∧ s.bufConfigWord.getLsbD 3 = s.sourceSet ∧ s.bufConfigWord.extractLsb' 4 28 = 0 := by
  have hwc := s.wc.isLt
  have hwidth := bitOf_le_one s.widthSet
  have hsource := bitOf_le_one s.sourceSet
  refine ⟨extractLsb'_ofNat_eq (by decide) ?_, getLsbD_ofNat_eq (by decide) ?_, getLsbD_ofNat_eq (by decide) ?_,
    extractLsb'_ofNat_eq_zero (by decide) ?_⟩
  all_goals omega

theorem State.capacityWord_of_widthSet {s : State} (h : s.widthSet = true) :
    s.capacityWord.toNat = s.sizeBytes.toNat / 2 ^ s.wc.toNat := by
  rw [State.capacityWord, if_pos h, BitVec.toNat_ofNat]
  exact Nat.mod_eq_of_lt ((Nat.div_le_self _ _).trans_lt s.sizeBytes.isLt)

theorem State.hStatusWord_fields (s : State) :
    s.hStatusWord.getLsbD 0 = s.hBuilt ∧ s.hStatusWord.extractLsb' 1 31 = 0 := by
  have hbuilt := bitOf_le_one s.hBuilt
  refine ⟨getLsbD_ofNat_eq (by decide) ?_, extractLsb'_ofNat_eq_zero (by decide) ?_⟩
  all_goals omega

/-- Bit [9] of V_CONFIG shows V_CH - 1 for one channel and for two (10_state.md R61). -/
theorem bitOf_two_channels (c : BitVec 2) (h : 1 ≤ c.toNat ∧ c.toNat ≤ 2) :
    (bitOf (c == 2) : Int) = c.toNat - 1 := by
  revert c
  decide

theorem State.vConfigWord_fields (s : State) :
    s.vConfigWord.extractLsb' 0 4 = s.vOrder ∧ s.vConfigWord.extractLsb' 4 5 = s.vPcount
      ∧ s.vConfigWord.getLsbD 9 = (s.vChannels == 2)
      ∧ s.vConfigWord.getLsbD 10 = s.vEntropy ∧ s.vConfigWord.getLsbD 11 = s.vOpen
      ∧ s.vConfigWord.extractLsb' 12 4 = 0 ∧ s.vConfigWord.extractLsb' 16 16 = s.vVersion := by
  have horder := s.vOrder.isLt
  have hpcount := s.vPcount.isLt
  have hchannels := bitOf_le_one (s.vChannels == 2)
  have hentropy := bitOf_le_one s.vEntropy
  have hopen := bitOf_le_one s.vOpen
  have hversion := s.vVersion.isLt
  refine ⟨extractLsb'_ofNat_eq (by decide) ?_, extractLsb'_ofNat_eq (by decide) ?_, getLsbD_ofNat_eq (by decide) ?_,
    getLsbD_ofNat_eq (by decide) ?_, getLsbD_ofNat_eq (by decide) ?_, extractLsb'_ofNat_eq_zero (by decide) ?_,
    extractLsb'_ofNat_eq (by decide) ?_⟩
  all_goals omega

/-- Settles O9: each word is a sum of fields that do not overlap, so each field is read back by a division. -/
theorem statusAndConfigShowTheirFields : Obligations.StatusAndConfigShowTheirFields := by
  intro s
  obtain ⟨horder, hpcount, hchannels, hrest⟩ := s.vConfigWord_fields
  exact ⟨s.statusWord_fields, s.bufConfigWord_fields,
    ⟨fun h => if_neg (Bool.eq_false_iff.mp h), State.capacityWord_of_widthSet⟩, s.hStatusWord_fields,
    horder, hpcount, fun h => hchannels ▸ bitOf_two_channels s.vChannels h, hrest⟩

/-! ### Reads and writes by the register map -/

theorem State.registerValue_of_readable {s : State} {offset : BitVec 8} {v : Word}
    (h : (offset, v) ∈ s.readableRegisters) : s.registerValue offset = some v := by
  have hall : ∀ r ∈ s.readableRegisters, s.registerValue r.1 = some r.2 := by
    simp [State.readableRegisters, State.registerValue]
  exact hall _ h

/-- CMD cannot be read, and no register stands between RREQ_SEEK and V_CONFIG or above H_STATUS. -/
theorem State.registerValue_of_unlisted (s : State) {offset : BitVec 8}
    (h : offset = 0 ∨ 0x58 < offset.toNat ∧ offset.toNat < 0x80 ∨ 0x9C < offset.toNat) :
    s.registerValue offset = none := by
  have hoffset : offset.toNat = 0 ∨ 0x58 < offset.toNat ∧ offset.toNat < 0x80 ∨ 0x9C < offset.toNat :=
    h.imp_left (congrArg BitVec.toNat)
  unfold State.registerValue
  split
  case h_31 => rfl
  all_goals omega

section
variable {offset : BitVec 8} (halign : offset.toNat % 4 = 0)
include halign

theorem not_badAccess : ¬ badAccess offset 32 = true := by
  simp [badAccess_iff, halign]

theorem State.regRead_readable {s : State} {v : Word} (h : s.registerValue offset = some v) :
    s.regRead offset 32 = { s with hostWord := some v } := by
  rw [State.regRead, if_neg (not_badAccess halign), h]

theorem State.regRead_unreadable {s : State} (hl : s.lifeState ≠ .faulted) (h : s.registerValue offset = none) :
    s.regRead offset 32 = State.raise { s with hostWord := none } noOp ⟨.badReg, offset.toNat, 0⟩ := by
  rw [State.regRead, if_neg (not_badAccess halign), h]
  exact if_neg hl

theorem regWrite_readOnly {s : State} (hl : s.lifeState ≠ .faulted) (h : 0x10 < offset.toNat) (v : Word) :
    regWrite offset 32 v s = .next (s.raise noOp ⟨.badReg, offset.toNat, 1⟩) := by
  rw [regWrite, if_neg (not_badAccess halign)]
  split
  case h_6 => exact congrArg _ (if_neg hl)
  all_goals omega

end

/-- Settles O11: a read goes by `registerValue`, a write by its offset. -/
theorem registerAccessFollowsTheMap : Obligations.RegisterAccessFollowsTheMap := by
  intro s offset rest hl halign
  refine ⟨fun hmove => ?_, fun v hmove hgo => ?_⟩
  · rw [step_regRead hmove]
    refine ⟨fun v hv => ?_, fun hunlisted => ?_⟩
    · have hvalue : (s.afterMove rest).registerValue offset = some v := State.registerValue_of_readable hv
      exact congrArg _ (State.regRead_readable halign hvalue)
    · exact congrArg _ (State.regRead_unreadable halign hl (State.registerValue_of_unlisted _ hunlisted))
  · rw [step_regWrite hmove hgo]
    refine ⟨?_, ?_, ?_, ?_, fun hro => regWrite_readOnly (s := s.afterMove rest) halign hl hro v⟩
    all_goals
      rintro rfl
      rfl

end Sys2Proof.Machine
end

section
/-! PROOF. The lifecycle and configuration commands INIT, CLOSE, SET_WIDTH and SET_SOURCE (40_sample_buffer.md R150 to
R160): past the common checks, each clause is one branch of the command's own part. -/

namespace Sys2Proof.Machine

/-! ### The flushed predicate and the width word -/

/-- The flushed predicate, with NEW as the number -1 (40_sample_buffer.md R153). -/
theorem State.flushed_iff_cursors (s : State) :
    s.flushed = true ↔ s.writePos = 0 ∧ s.writeLen = 0 ∧ s.readCursor = 0 ∧ s.nextExpected = -1 := s.flushed_iff

/-- A width word that SET_WIDTH refuses (30_encoding.md R124). -/
theorem badWidth_iff (w : Word) :
    (widthReserved w ≠ 0 ∨ widthCode w = 3) ↔ (w.extractLsb' 2 30 ≠ 0 ∨ w.extractLsb' 0 2 = 3) :=
  or_congr_left (BitVec.toNat_inj (x := w.extractLsb' 2 30) (y := 0)).not

/-! ### INIT -/

/-- Outside a read INIT passes the common checks in READY and in UNINIT. -/
theorem exec_init {s : State} (hl : s.lifeState ≠ .faulted) (hread : s.inRead = false) :
    exec .init s = (initBody s).close 0x01 := by
  cases hlife : s.lifeState with
  | uninit => exact issue_init_passes initBody hlife hread
  | ready => exact exec_host rfl hlife hread
  | faulted => exact absurd hlife hl

/-- Settles O13: in UNINIT by R150's checks in their order. -/
theorem initCreatesTheBufferOrFaults : Obligations.InitCreatesTheBufferOrFaults := by
  intro s hread
  refine ⟨fun hl => ?_, fun hl => ?_⟩
  · rw [exec_init (by simp [hl]) hread]
    simp [initBody, hl]
  have hexec : exec .init s = (initBody s).close 0x01 := exec_init (by simp [hl]) hread
  refine ⟨fun hsize => ?_, fun hne hmod => ⟨fun hres => ?_, fun hres hsum => ?_, fun hres hsum => ?_⟩⟩
  · simp [hexec, initBody, hl, hsize]
  · simp [hexec, initBody, hl, hne, hmod, hres]
  · simp [hexec, initBody, hl, hne, hmod, hres, hsum]
  · simp [hexec, initBody, hl, hne, hmod, hres, not_lt.mpr hsum]

/-! ### CLOSE -/

/-- Settles O14: CLOSE's hold, at once or in a step of its own, ends in power-on's values. -/
theorem closeReturnsToPowerOn : Obligations.CloseReturnsToPowerOn := by
  intro s
  refine ⟨fun ⟨hl, hread⟩ hqueue => ?_, fun ⟨hl, hread⟩ hqueue => ?_, fun hl hheld hqueue hin => ?_⟩
  · rw [exec_host rfl hl hread, bodyOf, closeBody, Bool.eq_false_iff.mpr (mt s.drained_iff.mp hqueue)]
    rfl
  · rw [exec_host rfl hl hread, bodyOf, closeBody, s.drained_iff.mpr hqueue]
    rfl
  · rw [step_held hl (.inl ⟨hin, rfl⟩) hheld (s.drained_iff.mpr hqueue)]
    rfl

/-! ### SET_WIDTH and SET_SOURCE -/

/-- Settles O15: the width word decides first, then the flushed predicate. -/
theorem setWidthSetsTheClassOrFaults : Obligations.SetWidthSetsTheClassOrFaults := by
  intro s ⟨hl, hread⟩
  rw [exec_host rfl hl hread, bodyOf]
  refine ⟨fun hbad => ?_, fun hres hcode => ?_⟩
  · exact congrArg _ (if_pos ((badWidth_iff _).mpr hbad))
  have hgood : ¬ (widthReserved s.arg0 ≠ 0 ∨ widthCode s.arg0 = 3) :=
    mt (badWidth_iff _).mp (not_or.mpr ⟨not_not.mpr hres, hcode⟩)
  refine ⟨fun hnot => ?_, fun hpos hlen hcur hnew => ?_⟩
  · have hdirty : ¬ s.flushed = true := mt s.flushed_iff_cursors.mp hnot
    exact congrArg _ ((if_neg hgood).trans (if_pos hdirty))
  · have hclean : s.flushed = true := s.flushed_iff_cursors.mpr ⟨hpos, hlen, hcur, hnew⟩
    exact congrArg _ ((if_neg hgood).trans (if_neg (not_not.mpr hclean)))

/-- SET_SOURCE, past its checks, drains (40_sample_buffer.md R160). -/
theorem setSourceBody_passes {s : State} (hflushed : s.flushed = true) (hmod : s.arg1.toNat % 16 = 0)
    (hle : s.arg1.toNat ≤ s.stateReserved.toNat) :
    setSourceBody s = s.holdUntil s.drained (.setSource s.arg0 s.arg1) (setSourceFinish s.arg0 s.arg1) :=
  (if_neg (not_not.mpr hflushed)).trans ((if_neg (not_not.mpr hmod)).trans (if_neg (Nat.not_lt.mpr hle)))

/-- Settles O16: R160's checks, the hold, and the bytes that `setSourceFinish` clears. -/
theorem setSourceBindsTheSourceOrFaults : Obligations.SetSourceBindsTheSourceOrFaults := by
  intro s ⟨hl, hread⟩
  have hexec : exec .setSource s = (setSourceBody s).close 0x04 := exec_host rfl hl hread
  refine ⟨fun hnot => ?_, fun hpos hlen hcur hnew => ?_⟩
  · have hdirty : ¬ s.flushed = true := mt s.flushed_iff_cursors.mp hnot
    exact hexec.trans (congrArg _ (if_pos hdirty))
  have hflushed : s.flushed = true := s.flushed_iff_cursors.mpr ⟨hpos, hlen, hcur, hnew⟩
  refine ⟨fun hmod => ?_, fun hmod hlt => ?_, fun hmod hle => ⟨fun hqueue => ?_, fun hqueue => ?_⟩⟩
  · simp [hexec, setSourceBody, hflushed, hmod]
  · simp [hexec, setSourceBody, hflushed, hmod, hlt]
  · rw [hexec, setSourceBody_passes hflushed hmod hle, Bool.eq_false_iff.mpr (mt s.drained_iff.mp hqueue)]
    rfl
  · rw [exec_setSource_drained hl hread hflushed hmod hle hqueue]
    have hid : decide (s.arg0 ≠ 0) = (s.arg0 != 0) := by simp [bne, beq_eq_decide]
    rw [hid]
    exact ⟨Memory.clear s.storage s.sizeBytes.toNat s.storageSize, rfl, fun a => Memory.read_clear ..⟩

end Sys2Proof.Machine
end

section
/-! PROOF. GET (40_sample_buffer.md R170 to R188): its checks, its two paths up to the read request, and its end after
READ_DONE. -/

namespace Sys2Proof.Machine

/-! ### Narrowing and rounding -/

/-- A value inside s32 is held as it is (assumption 8 does not speak of it). -/
theorem State.fitS32_eq (s : State) (site : FreeSite) {v : Int} (lo : -2147483648 ≤ v) (hi : v ≤ 2147483647) :
    s.fitS32 site v = BitVec.ofInt 32 v := if_pos ⟨lo, hi⟩

theorem State.fitU32_eq (s : State) (site : FreeSite) {v : Int} (lo : 0 ≤ v) (hi : v < 2 ^ 32) :
    s.fitU32 site v = BitVec.ofInt 32 v := if_pos ⟨lo, Int.le_of_lt_add_one hi⟩

/-- The least multiple that `isRoundUp` names is the one round_up computes (00_scope.md R12). -/
theorem roundUp_eq_of_isRoundUp {len n g : Int} (hg : 0 < g) (h : isRoundUp len n g) : roundUp n g = len := by
  obtain ⟨hmod, hle, hlt⟩ := h
  obtain ⟨k, rfl⟩ := Int.dvd_of_emod_eq_zero hmod
  have hk : (n + g - 1) / g = k := (Int.ediv_eq_iff_of_pos hg).mpr ⟨by linarith, by linarith⟩
  rw [roundUp, hk, Int.mul_comm]

theorem State.windowBounds_of_ready {s : State} (h : s.windowInvariant) (hl : s.lifeState = .ready) :
    s.windowBounds := by
  rcases h with hf | ⟨hbounds, -⟩
  · rw [hl] at hf
    cases hf
  · exact hbounds

/-! ### GET's checks -/

/-- Settles O17: each check is reached past the ones before it. -/
theorem getChecksItsOperandsInOrder : Obligations.GetChecksItsOperandsInOrder := by
  intro s ⟨hl, hread⟩
  have hexec : exec .get s = (getBody s).close 0x05 := exec_host rfl hl hread
  refine ⟨fun hpos => ?_, fun hpos hlen => ?_,
    fun hpos hlen => ⟨fun hsum => ?_, fun hsum => ⟨fun hw => ?_, fun hw hsrc => ?_⟩⟩⟩
  · simp [hexec, getBody, hpos]
  · simp [hexec, getBody, not_lt.mpr hpos, hlen]
  · simp [hexec, getBody, not_lt.mpr hpos, not_lt.mpr hlen, hsum]
  · simp [hexec, getBody, not_lt.mpr hpos, not_lt.mpr hlen, not_lt.mpr hsum, hw]
  · simp [hexec, getBody, not_lt.mpr hpos, not_lt.mpr hlen, not_lt.mpr hsum, hw, hsrc]

/-- The state in which GET goes on past its checks, its operands latched (10_state.md R44). -/
def State.latchGet (s : State) : State := { s with gWpos := s.arg0, gWlen := s.arg1 }

/-- GET past its checks takes one of its two paths (40_sample_buffer.md R175). -/
theorem exec_get_passes {s : State} (h : s.getPasses) :
    exec .get s = (if s.discontinuous s.arg0.toInt then getDiscontinuous s.arg0.toInt s.arg1.toInt s.latchGet
      else getContinuous s.arg0.toInt s.arg1.toInt s.latchGet).close 0x05 := by
  obtain ⟨⟨hl, hread⟩, hpos, hlen, hsum, hw, hsrc⟩ := h
  have hexec : exec .get s = (getBody s).close 0x05 := exec_host rfl hl hread
  rw [hexec, getBody]
  simp only [signedArg]
  rw [if_neg (not_lt.mpr hpos), if_neg (not_lt.mpr hlen), if_neg (not_lt.mpr hsum), if_neg (by simp [hw]),
    if_neg (by simp [hsrc])]
  rfl

theorem State.discontinuous_iff (s : State) (wpos : Int) :
    s.discontinuous wpos = true ↔ s.writeLen.toInt = 0
      ∨ ((wpos < s.writePos.toInt ∨ s.writePos.toInt + s.writeLen.toInt ≤ wpos) ∧ wpos ≠ s.nextExpected.toInt) :=
  decide_eq_true_iff

/-! ### GET's two paths -/

/-- A published request, where its position and length are legal (40_sample_buffer.md R182). -/
theorem State.requestRead_eq (s : State) {pos len : Int} (seeking : Bool) (hpos : 0 ≤ pos) (hlen : 0 ≤ len)
    (hsum : pos + len ≤ 2147483647) :
    s.requestRead pos len seeking = { s with
      rreqPos := BitVec.ofInt 32 pos
      rreqLen := BitVec.ofInt 32 len
      rreqSeek := seeking
      inRead := true
      getSuspended := true
      srcPhase := .start } := by
  rw [State.requestRead, s.fitS32_eq _ (by omega) (by omega), s.fitS32_eq _ (by omega) (by omega)]

/-- The cursors flushed, with the window to begin at `wp` (40_sample_buffer.md R180). -/
def State.flushTo (s : State) (wp : Int) : State := { s.flushCursors with writePos := BitVec.ofInt 32 wp }

/-- The discontinuous path, said of the request's start `wp` and its rounded length `len`. -/
theorem getDiscontinuous_eq {s : State} {wpos wlen wp len : Int}
    (hwp : wp = if s.bytesPerSample = 1 ∧ wpos % 2 = 1 then wpos - 1 else wpos)
    (hlen : roundUp (wlen + (wpos - wp)) s.granularity = len) :
    getDiscontinuous wpos wlen s = if posMax < wp + len then .trap (s.flushTo wp) ⟨.badArg, wp, len⟩
      else .done (State.requestRead { s.flushTo wp with gPhase := true } wp len
        (decide (wpos ≠ s.nextExpected.toInt))) := by
  subst hwp hlen
  rfl

/-- Settles O18: by the discontinuous path's start and rounded length. -/
theorem discontinuousGetFlushesAndRequests : Obligations.DiscontinuousGetFlushesAndRequests := by
  intro s wp len hpass hdisc hwp hround
  have hpath : exec .get s = (getDiscontinuous s.arg0.toInt s.arg1.toInt s.latchGet).close 0x05 :=
    (exec_get_passes hpass).trans (congrArg _ (if_pos ((s.discontinuous_iff _).mpr hdisc)))
  rw [hpath, getDiscontinuous_eq (s := s.latchGet) hwp
    (roundUp_eq_of_isRoundUp (Int.natCast_pos.mpr s.granularity_pos) hround)]
  obtain ⟨-, hpos, hnonneg, -⟩ := hpass
  obtain ⟨-, hle, -⟩ := hround
  have hwp0 : 0 ≤ wp ∧ wp ≤ s.arg0.toInt := by
    rw [hwp]
    split <;> omega
  refine ⟨fun hsum => ?_, fun hsum => ?_⟩
  · rw [if_neg (not_lt.mpr hsum), State.requestRead_eq _ _ (by omega) (by omega) hsum]
    rfl
  · rw [if_pos hsum]
    rfl

/-- READ_CURSOR at the sample `idx` of the window (40_sample_buffer.md R185). -/
def State.markCursor (s : State) (idx : Int) : State := { s with readCursor := BitVec.ofInt 32 idx }

/-- The continuous path of a GET of more than is resident, said of the window's end `fin` and the rounded length `len`
of the missing tail. -/
theorem getContinuous_missing {s : State} {wpos wlen fin len : Int} (hfin : s.writePos.toInt + s.writeLen.toInt = fin)
    (hidx : 0 ≤ wpos - s.writePos.toInt) (hidxMax : wpos - s.writePos.toInt ≤ 2147483647)
    (hmissing : fin < wpos + wlen) (hlen : roundUp (wpos + wlen - fin) s.granularity = len) :
    getContinuous wpos wlen s
      = if posMax < fin + len then .trap (s.markCursor (wpos - s.writePos.toInt)) ⟨.badArg, fin, len⟩
        else .done (State.requestRead { s.markCursor (wpos - s.writePos.toInt) with gPhase := false } fin len
          false) := by
  have hreuse : wlen - (fin - wpos) = wpos + wlen - fin := by ring
  have hend : wpos + (fin - wpos) = fin := by ring
  rw [getContinuous, s.fitS32_eq _ (by omega) hidxMax, hfin]
  simp only [hreuse, hend, hlen]
  exact if_pos (by omega)

/-- Settles O19: by the continuous path's end of the window and missing tail, which the invariant keeps legal. -/
theorem continuousGetRequestsTheMissingTail : Obligations.ContinuousGetRequestsTheMissingTail := by
  intro s len hpass _ hinv hwlen hlo hcont hmissing hround
  have hdisc : ¬ s.discontinuous s.arg0.toInt = true := by
    rw [s.discontinuous_iff]
    omega
  have hpath : exec .get s = (getContinuous s.arg0.toInt s.arg1.toInt s.latchGet).close 0x05 :=
    (exec_get_passes hpass).trans (congrArg _ (if_neg hdisc))
  obtain ⟨⟨hl, -⟩, -⟩ := hpass
  obtain ⟨hpos0, hcur0, hcurLen, -⟩ := State.windowBounds_of_ready hinv hl
  have hmax := (toInt_bounds s.arg0).2
  rw [hpath, getContinuous_missing (s := s.latchGet) (fin := s.writePos.toInt + s.writeLen.toInt) rfl
    (Int.sub_nonneg.mpr hlo) ((Int.sub_le_self _ hpos0).trans hmax) hmissing
    (roundUp_eq_of_isRoundUp (Int.natCast_pos.mpr s.granularity_pos) hround)]
  obtain ⟨-, hle, -⟩ := hround
  refine ⟨fun hsum => ?_, fun hsum => ?_⟩
  · rw [if_neg (not_lt.mpr hsum), State.requestRead_eq _ _ (by omega) (by omega) hsum]
    rfl
  · rw [if_pos hsum]
    rfl

/-! ### READ_DONE, and the GET's end -/

/-- GET's result, where its offset is legal (40_sample_buffer.md R188). -/
theorem State.getResult_eq (s : State) {wpos : Int} (wlen : Int) (hlo : s.writePos.toInt ≤ wpos)
    (hoff : (wpos - s.writePos.toInt) * s.bytesPerSample < 2 ^ 32) :
    s.getResult wpos wlen = { s with
      res0 := BitVec.ofInt 32 ((wpos - s.writePos.toInt) * s.bytesPerSample)
      res1 := BitVec.ofInt 32 (max 0 (min wlen (s.writePos.toInt + s.writeLen.toInt - wpos))) } := by
  have hoff0 : 0 ≤ (wpos - s.writePos.toInt) * (s.bytesPerSample : Int) :=
    Int.mul_nonneg (Int.sub_nonneg.mpr hlo) (Int.natCast_nonneg _)
  have havail : s.writeLen.toInt - (wpos - s.writePos.toInt) = s.writePos.toInt + s.writeLen.toInt - wpos := by ring
  rw [State.getResult, s.fitU32_eq .res0 hoff0 hoff, havail]

/-- The suspended GET woken, with the window's end as NEW (40_sample_buffer.md R180, R185). -/
def State.wakeGet (s : State) : State :=
  { s with getSuspended := false, nextExpected := BitVec.ofInt 32 (s.writePos.toInt + s.writeLen.toInt) }

/-- The suspended GET completes, where the window's end is legal. -/
theorem getResume_eq {s : State} (hend0 : 0 ≤ s.writePos.toInt + s.writeLen.toInt)
    (hend : s.writePos.toInt + s.writeLen.toInt ≤ 2147483647) :
    getResume s = .done (s.wakeGet.getResult s.gWpos.toInt s.gWlen.toInt) := by
  rw [getResume, if_neg (not_lt.mpr hend), s.fitS32_eq _ (by omega) hend]
  rfl

/-- After READ_DONE the suspended GET goes on: the control path's step does it, and so does the wait of a command word
(20_memory.md R100; assumption 17). -/
theorem step_getGoesOn {s : State} {rest : List Move} (hwork : s.controlWork = .getGoesOn)
    (hnext : s.controlPathIsNext rest ∨ (s.inputs = rest ∧ ∃ w moves, rest = issueMove w :: moves)) :
    step s = (getResume (s.afterMove rest)).close 0x05 := by
  have hcontrol (idle : State → Result) :
      controlStep idle (s.afterMove rest) = (getResume (s.afterMove rest)).close 0x05 := by
    have hwork' : (s.afterMove rest).controlWork = .getGoesOn := hwork
    rw [controlStep, hwork']
    rfl
  have htick (hin : s.inputs = rest) : ({ s with freeTick := s.freeTick + 1 } : State) = s.afterMove rest := by
    cases s
    cases hin
    rfl
  rcases hnext with (⟨hin, rfl⟩ | hin) | ⟨hin, w, moves, hmove⟩
  · rw [step_idle hin, htick hin, hcontrol]
  · exact (step_control hin).trans (hcontrol _)
  · have hwait : s.writeWaits 0 = true := by simp [State.writeWaits, hwork]
    rw [step_waits (hin.trans hmove) hwait, htick hin, hcontrol]

/-- Settles O21: READ_DONE's one register, and the GET's end in a step of its own. -/
theorem readDoneLetsTheGetFinish : Obligations.ReadDoneLetsTheGetFinish := by
  intro s rest
  refine ⟨fun ⟨hl, hread⟩ => exec_source rfl hl hread, ?_⟩
  intro hl hread hget hheld hnext hinv hlo _ hoff hend
  have hwork : s.controlWork = .getGoesOn := by simp [State.controlWork, hl, hheld, hread, hget]
  obtain ⟨hpos0, hcur0, hcurLen, -⟩ := State.windowBounds_of_ready hinv hl
  have hend0 : 0 ≤ s.writePos.toInt + s.writeLen.toInt := by omega
  rw [step_getGoesOn hwork hnext, getResume_eq (s := s.afterMove rest) hend0 hend,
    (s.afterMove rest).wakeGet.getResult_eq _ hlo hoff]
  rfl

end Sys2Proof.Machine
end

section
/-! PROOF. The window commands DISCARD, FLUSH, APPEND, UNDO and SCOPY (40_sample_buffer.md R190 to R222): which bytes of
STORAGE each moves, clears or stores, and which checks stand before that. -/

namespace Sys2Proof.Machine

/-! ### The window in STORAGE -/

/-- A number of samples within CAPACITY lies within SIZE_BYTES (10_state.md R35). -/
theorem State.samples_le_sizeBytes (s : State) {n : Int} (h : n ≤ s.capacity) :
    n * s.bytesPerSample ≤ s.sizeBytes.toNat :=
  calc n * s.bytesPerSample ≤ (s.capacity : Int) * s.bytesPerSample :=
        Int.mul_le_mul_of_nonneg_right h (Int.natCast_nonneg _)
    _ = (s.capacity * s.bytesPerSample : Nat) := (Int.natCast_mul ..).symm
    _ ≤ s.sizeBytes.toNat := Int.ofNat_le.mpr (Nat.div_mul_le_self ..)

theorem State.samples_nonneg (s : State) {n : Int} (h : 0 ≤ n) : 0 ≤ n * (s.bytesPerSample : Int) :=
  Int.mul_nonneg h (Int.natCast_nonneg _)

/-- Reads after a range with exact integer bounds is cleared. -/
theorem Memory.read_clear_toNat (m : List Host.Cell) (lo hi : Int) (a : Nat) :
    Memory.read (Memory.clear m lo.toNat hi.toNat) a = if lo ≤ a ∧ a < hi then none else Memory.read m a := by
  simp only [Memory.read_clear, Int.toNat_le, Int.lt_toNat]

/-- Where some pending job writes a byte of the range, the hazard check names one that does (20_memory.md R104). -/
theorem State.exists_hazard {s : State} {lo hi : Nat} (h : ¬ s.noHazard lo hi) :
    ∃ j ∈ s.queue, max j.lo lo < min j.hi hi ∧ s.hazardAt lo hi = some j.lo := by
  obtain ⟨start, hstart⟩ := Option.ne_none_iff_exists'.mp (mt (s.hazardAt_eq_none_iff_noHazard lo hi).mp h)
  obtain ⟨j, hj, hover, rfl⟩ := State.exists_job_of_hazardAt hstart
  exact ⟨j, hj, hover, hstart⟩

theorem State.noHazard_of_drained {s : State} (h : s.queue = []) (lo hi : Nat) : s.noHazard lo hi :=
  (s.hazardAt_eq_none_iff_noHazard lo hi).mp (State.hazardAt_of_drained h lo hi)

/-! ### discard_window -/

/-- discard_window of a position past WRITE_POS drops `idx` samples (40_sample_buffer.md R205). -/
theorem State.discardCount_eq {s : State} {p : Int} {idx : Nat} (hp : s.writePos.toInt < p)
    (hidx : (idx : Int) = if s.bytesPerSample = 1
      then min (p - s.writePos.toInt) s.writeLen.toInt - min (p - s.writePos.toInt) s.writeLen.toInt % 2
      else min (p - s.writePos.toInt) s.writeLen.toInt) : s.discardCount p = idx := by
  rw [State.discardCount, if_neg (by omega)]
  split at hidx <;> rename_i hb
  · rw [if_pos hb, roundDown, ← hidx, Int.toNat_natCast]
  · rw [if_neg hb, ← hidx, Int.toNat_natCast]

theorem State.discardCount_of_le {s : State} {p : Int} (hp : p ≤ s.writePos.toInt) : s.discardCount p = 0 :=
  if_pos (by omega)

theorem State.discardWindow_none {s : State} {p : Int} (hidx : s.discardCount p = 0) (h : Held)
    (rest : State → Exit) : s.discardWindow p h rest = rest s := if_pos hidx

theorem State.discardWindow_waits {s : State} {p : Int} (hidx : s.discardCount p ≠ 0) (hqueue : s.queue ≠ [])
    (h : Held) (rest : State → Exit) : s.discardWindow p h rest = .done { s with held := some h } := by
  rw [State.discardWindow, if_neg hidx, Bool.eq_false_iff.mpr (mt s.drained_iff.mp hqueue), State.holdUntil_false]

theorem State.discardWindow_drops {s : State} {p : Int} (hidx : s.discardCount p ≠ 0) (hqueue : s.queue = [])
    (h : Held) (rest : State → Exit) : s.discardWindow p h rest = rest (s.dropSamples (s.discardCount p)) := by
  rw [State.discardWindow, if_neg hidx, s.drained_iff.mpr hqueue, State.holdUntil_true]

/-- `m` is STORAGE with the window's bytes from sample `idx` on moved to offset 0, the vacated bytes holding no value
and every other byte as it was (40_sample_buffer.md R205). -/
def State.tailMovedTo (s : State) (idx : Nat) (m : List Host.Cell) : Prop :=
  ∀ a : Nat, Memory.read m a
    = if (a : Int) < (s.writeLen.toInt - idx) * s.bytesPerSample
      then Memory.read s.storage (idx * s.bytesPerSample + a)
      else if (a : Int) < s.writeLen.toInt * s.bytesPerSample then none
      else Memory.read s.storage a

/-- `s` with STORAGE `m` and the cursors moved past `idx` samples. -/
def State.dropped (s : State) (m : List Host.Cell) (idx : Nat) : State :=
  { s with
    storage := m
    writePos := BitVec.ofInt 32 (s.writePos.toInt + idx)
    writeLen := BitVec.ofInt 32 (s.writeLen.toInt - idx)
    readCursor := BitVec.ofInt 32 (max (s.readCursor.toInt - idx) 0) }

theorem State.tailMovedTo_zero (s : State) : s.tailMovedTo 0 s.storage := by
  intro a
  simp only [Nat.zero_mul, Nat.zero_add, Int.natCast_zero, Int.sub_zero]
  split
  · rfl
  · rfl

theorem State.dropped_zero {s : State} (hcur : 0 ≤ s.readCursor.toInt) : s.dropped s.storage 0 = s := by
  simp [State.dropped, hcur]

section
variable {s : State} {idx : Nat} (hidx : (idx : Int) ≤ s.writeLen.toInt)
include hidx

theorem State.tailMovedTo_dropSamples : s.tailMovedTo idx (s.dropSamples idx).storage := by
  intro a
  obtain ⟨len, hlen⟩ : ∃ len : Nat, s.writeLen.toInt = len := ⟨s.writeLen.toInt.toNat, by omega⟩
  have hkept : (len : Int) - idx = (len - idx : Nat) := by omega
  simp only [State.dropSamples, hlen, hkept, Int.toNat_natCast, Memory.read_clear, Memory.read_copy, Nat.sub_zero,
    Nat.zero_le, true_and, Nat.zero_add, ← Int.natCast_mul, Int.ofNat_lt]
  by_cases hlow : a < (len - idx) * s.bytesPerSample
  · rw [if_pos hlow, if_neg (by omega), if_pos hlow]
  · simp only [hlow, not_lt.mp hlow, true_and, if_false]

theorem State.dropSamples_eq_dropped (hpos : 0 ≤ s.writePos.toInt) (hend : s.writePos.toInt + idx ≤ 2147483647) :
    s.dropSamples idx = s.dropped (s.dropSamples idx).storage idx := by
  have hlen : BitVec.ofNat 32 (s.writeLen.toInt.toNat - idx) = BitVec.ofInt 32 (s.writeLen.toInt - idx) := by
    rw [← BitVec.ofInt_natCast]
    congr 1
    omega
  rw [State.dropSamples, s.fitS32_eq _ (by omega) hend, hlen]
  rfl

end

/-! ### DISCARD and FLUSH -/

/-- Settles O23: by what discard_window does with `idx` samples. -/
theorem discardKeepsTheTail : Obligations.DiscardKeepsTheTail := by
  intro s idx ⟨hl, hread⟩ hinv
  have hpos0 : 0 ≤ s.writePos.toInt := (State.windowBounds_of_ready hinv hl).1
  have hexec (h : 0 ≤ s.arg0.toInt) := exec_discard_nonneg hl hread h
  refine ⟨fun hneg => ?_, fun hnonneg hle => ?_, fun hlt hidx => ?_⟩
  · rw [exec_host rfl hl hread]
    exact congrArg _ (if_pos hneg)
  · rw [hexec hnonneg, State.discardWindow_none (State.discardCount_of_le hle)]
    rfl
  have hcount := State.discardCount_eq hlt hidx
  subst hcount
  have hnonneg : 0 ≤ s.arg0.toInt := by omega
  refine ⟨fun hz => ?_, fun hne hqueue => ?_, fun hne hqueue hend => ?_⟩
  · rw [hexec hnonneg, State.discardWindow_none hz]
    rfl
  · rw [hexec hnonneg, State.discardWindow_waits hne hqueue]
    rfl
  · have hlen := (s.discardCount_le _ hne).2
    refine ⟨_, ?_, State.tailMovedTo_dropSamples hlen⟩
    rw [hexec hnonneg, State.discardWindow_drops hne hqueue, State.dropSamples_eq_dropped hlen hpos0 hend]
    rfl

/-- Settles O24: FLUSH's cursors, and the PCM bytes it clears. -/
theorem flushEmptiesTheBuffer : Obligations.FlushEmptiesTheBuffer := by
  intro s ⟨hl, hread⟩
  refine ⟨Memory.clear s.storage 0 s.sizeBytes.toNat, exec_host rfl hl hread, fun a => ?_⟩
  simp only [Memory.read_clear, Nat.zero_le, true_and]

/-! ### UNDO -/

/-- Settles O29: R200's checks, and the bytes between the new and the old end of the window. -/
theorem undoRetractsTheTailOrFaults : Obligations.UndoRetractsTheTailOrFaults := by
  intro s ⟨hl, hread⟩
  rw [exec_source rfl hl hread, bodyOf]
  refine ⟨fun hneg => congrArg _ (if_pos hneg), fun hnonneg hlt => ?_, fun hnonneg hle => ?_⟩
  · exact congrArg _ ((if_neg (not_lt.mpr hnonneg)).trans (if_pos hlt))
  · refine ⟨_, congrArg _ ((if_neg (not_lt.mpr hnonneg)).trans (if_neg (not_lt.mpr hle))), ?_⟩
    exact Memory.read_clear_toNat s.storage _ _

/-! ### SCOPY -/

/-- A read of STREAM inside its length, or of no byte (20_memory.md R82; assumption 11). -/
theorem State.readStream_inside {s : State} {off n : Nat} (h : n = 0 ∨ off + n ≤ s.stream.length) :
    s.readStream off n = .ok ((s.stream.drop off).take n) := by
  rcases h with rfl | hin
  · rfl
  · rw [State.readStream, romRead_eq_some hin]

/-- A read of STREAM that runs beyond its length (20_memory.md R82). -/
theorem State.readStream_beyond {s : State} {off n : Nat} (hn : n ≠ 0) (h : s.stream.length < off + n) :
    s.readStream off n = .error ⟨.streamIo, off, s.stream.length⟩ := by
  rw [State.readStream, romRead, if_neg hn, if_neg (Nat.not_le.mpr h)]

/-- Reads after bytes taken from a list are stored (00_scope.md R14). -/
theorem Memory.read_writeBytes_slice {bytes : List Byte} {off n : Nat} (h : n = 0 ∨ off + n ≤ bytes.length)
    (m : List Host.Cell) (dst a : Nat) :
    Memory.read (Memory.writeBytes m dst ((bytes.drop off).take n)) a
      = if dst ≤ a ∧ a < dst + n then bytes[off + (a - dst)]? else Memory.read m a := by
  have hlen : ((bytes.drop off).take n).length = n := by
    rw [List.length_take, List.length_drop]
    omega
  rw [Memory.read_writeBytes, hlen]
  split
  · rw [List.getElem?_take_of_lt (by omega), List.getElem?_drop]
  · rfl

/-- Settles O30: R222's checks in their order; the window's end is inside STORAGE, so the store passes its own check. -/
theorem scopyCopiesStreamBytesOrFaults : Obligations.ScopyCopiesStreamBytesOrFaults := by
  intro s ⟨hl, hread⟩ hinv
  have hexec : exec .scopy s = (scopyBody s).close 0x13 := exec_source rfl hl hread
  refine ⟨fun hneg => hexec.trans (congrArg _ (if_pos hneg)), fun hnonneg => ⟨fun hout => ?_, fun hin => ?_⟩⟩
  · exact hexec.trans (congrArg _ ((if_neg (not_lt.mpr hnonneg)).trans (if_pos hout)))
  obtain ⟨-, -, -, hcap, -⟩ := State.windowBounds_of_ready hinv hl
  have hend : s.windowEnd ≤ s.sizeBytes.toNat := s.samples_le_sizeBytes hcap
  obtain ⟨n, hn⟩ : ∃ n : Nat, s.arg2.toInt = n := ⟨s.arg2.toInt.toNat, by omega⟩
  simp only [hn, Int.toNat_natCast] at hin ⊢
  have hpast : ¬ (n : Int) < 0 ∧ ¬ s.windowEnd < s.arg0.toNat + n := ⟨by omega, by omega⟩
  refine ⟨fun hhazard => ?_, fun hfree => ?_⟩
  · obtain ⟨j, hj, hover, hat⟩ := State.exists_hazard hhazard
    exact ⟨j, hj, hover, by simp [hexec, scopyBody, hn, hpast, hat]⟩
  have hnone := (s.hazardAt_eq_none_iff_noHazard _ _).mpr hfree
  refine ⟨fun hne hbeyond => ?_, fun hfits => ?_⟩
  · have hstream := State.readStream_beyond (s := s) (off := s.arg1.toNat) (n := n) (by omega) (by omega)
    simp [hexec, scopyBody, hn, hpast, hnone, hstream]
  · have hfits' : n = 0 ∨ s.arg1.toNat + n ≤ s.stream.length := by omega
    have hstore := State.storeBytes_inside (s := s) (off := s.arg0.toNat) (bs := (s.stream.drop s.arg1.toNat).take n)
      (.inr (by rw [State.storageSize, List.length_take]; omega))
    refine ⟨Memory.writeBytes s.storage s.arg0.toNat ((s.stream.drop s.arg1.toNat).take n), ?_, fun a => ?_⟩
    · simp [hexec, scopyBody, hn, hpast, hnone, State.readStream_inside hfits', hstore]
    · rw [Memory.read_writeBytes_slice hfits']
      simp only [← Int.natCast_add, Int.ofNat_lt]

/-! ### APPEND -/

section
variable {u : State} {wlen len : Int} (hlen : u.writeLen.toInt = len)
include hlen

/-- A tail beyond CAPACITY (40_sample_buffer.md R190). -/
theorem appendTail_capacity (hcap : (u.capacity : Int) < len + wlen) :
    appendTail wlen u = .trap u ⟨.capacity, len + wlen, u.capacity⟩ := by
  subst hlen
  exact if_pos hcap

variable (hcap : len + wlen ≤ u.capacity)
include hcap

theorem appendTail_misaligned (hoff : len * u.bytesPerSample % 8 ≠ 0) :
    appendTail wlen u = .trap u ⟨.misaligned, len * u.bytesPerSample, wlen⟩ := by
  subst hlen
  exact (if_neg (not_lt.mpr hcap)).trans (if_pos hoff)

variable (hoff : len * u.bytesPerSample % 8 = 0)
include hoff

theorem appendTail_hazard {lo : Nat}
    (hat : u.hazardAt (len * u.bytesPerSample).toNat (len * u.bytesPerSample + wlen * u.bytesPerSample).toNat
      = some lo) :
    appendTail wlen u = .trap u ⟨.hazard, len * u.bytesPerSample, lo⟩ := by
  subst hlen
  simp [appendTail, State.windowEnd, not_lt.mpr hcap, hoff, hat]

/-- The tail is reserved: its bytes lose their values and the window grows (40_sample_buffer.md R190). -/
theorem appendTail_reserves (hlen0 : 0 ≤ len) (hwlen : 0 ≤ wlen) (hsize : (u.sizeBytes.toNat : Int) ≤ posMax)
    (hfree : u.noHazard (len * u.bytesPerSample).toNat (len * u.bytesPerSample + wlen * u.bytesPerSample).toNat) :
    appendTail wlen u = .done { u with
      storage := Memory.clear u.storage (len * u.bytesPerSample).toNat
        (len * u.bytesPerSample + wlen * u.bytesPerSample).toNat
      writeLen := BitVec.ofInt 32 (len + wlen)
      res0 := BitVec.ofInt 32 (len * u.bytesPerSample) } := by
  have hmax : len + wlen ≤ 2147483647 := hcap.trans ((Int.ofNat_le.mpr u.capacity_le_sizeBytes).trans hsize)
  have hoffMax : len * u.bytesPerSample ≤ 2147483647 :=
    (u.samples_le_sizeBytes ((Int.le_add_of_nonneg_right hwlen).trans hcap)).trans hsize
  subst hlen
  have hnone := (u.hazardAt_eq_none_iff_noHazard _ _).mpr hfree
  simp only [appendTail, State.windowEnd, if_neg (not_lt.mpr hcap), hoff, ne_eq, not_true_eq_false, if_false, hnone]
  rw [State.fitS32_eq _ _ (by omega) hmax, State.fitU32_eq _ _ (u.samples_nonneg hlen0) (by omega)]
  rfl

end

/-- A diagnostic value inside u32 is shown as it is (10_state.md R45). -/
theorem State.fitInfo_toNat (s : State) (site : FreeSite) {v : Int} (lo : 0 ≤ v) (hi : v < 2 ^ 32) :
    ((s.fitInfo site v).toNat : Int) = v := by
  rw [State.fitInfo, if_pos ⟨by omega, by omega⟩, BitVec.toNat_ofInt]
  omega

theorem exec_append_fits {s : State} (hl : s.lifeState = .ready) (hread : s.inRead = true) (h : 0 ≤ s.arg0.toInt)
    (hcap : s.writeLen.toInt + s.arg0.toInt ≤ s.capacity) :
    exec .append s = (appendTail s.arg0.toInt s).close 0x10 := by
  rw [exec_source rfl hl hread, bodyOf]
  exact congrArg _ ((if_neg (not_lt.mpr h)).trans (if_neg (not_lt.mpr hcap)))

/-- Settles O26: the tail of the window as it stands. -/
theorem appendReservesTheTail : Obligations.AppendReservesTheTail := by
  intro s ⟨hl, hread⟩ hinv
  obtain ⟨-, hcur0, hcurLen, -, -, hsize⟩ := State.windowBounds_of_ready hinv hl
  refine ⟨fun hneg => ?_, fun hwlen hcap => ?_⟩
  · rw [exec_source rfl hl hread]
    exact congrArg _ (if_pos hneg)
  rw [exec_append_fits hl hread hwlen hcap]
  refine ⟨fun hoff => ?_, fun hoff => ⟨fun hhazard => ?_, fun hfree => ?_⟩⟩
  · exact congrArg _ (appendTail_misaligned rfl hcap hoff)
  · obtain ⟨j, hj, hover, hat⟩ := State.exists_hazard hhazard
    exact ⟨j, hj, hover, congrArg _ (appendTail_hazard rfl hcap hoff hat)⟩
  · refine ⟨_, congrArg _ (appendTail_reserves rfl hcap hoff (hcur0.trans hcurLen) hwlen hsize hfree), ?_⟩
    exact Memory.read_clear_toNat s.storage _ _

/-! ### APPEND with a compaction -/

/-- What compact() drops lies before READ_CURSOR (40_sample_buffer.md R195). -/
theorem State.keep_le_readCursor (s : State) {keep : Nat}
    (hkeep : (keep : Int) = s.readCursor.toInt - s.readCursor.toInt % s.granularity) :
    (keep : Int) ≤ s.readCursor.toInt := by
  have hmod : 0 ≤ s.readCursor.toInt % s.granularity :=
    Int.emod_nonneg _ (Int.natCast_ne_zero.mpr s.granularity_pos.ne')
  omega

/-- compact() drops everything before READ_CURSOR, rounded down to G samples (40_sample_buffer.md R195): with B = 1, G
is 8, so that the count is even. -/
theorem State.discardCount_compact {s : State} {keep : Nat} (hcur : s.readCursor.toInt ≤ s.writeLen.toInt)
    (hkeep : (keep : Int) = s.readCursor.toInt - s.readCursor.toInt % s.granularity) :
    s.discardCount (s.writePos.toInt + roundDown s.readCursor.toInt s.granularity) = keep := by
  rw [roundDown, ← hkeep]
  rcases Nat.eq_zero_or_pos keep with rfl | hpos
  · exact State.discardCount_of_le (by omega)
  have hkeepLe := s.keep_le_readCursor hkeep
  have hmin : min (s.writePos.toInt + keep - s.writePos.toInt) s.writeLen.toInt = keep := by omega
  refine State.discardCount_eq (by omega) ?_
  rw [hmin]
  split
  · rename_i hb
    rw [State.granularity, hb] at hkeep
    omega
  · rfl

/-- The compaction, once nothing holds it, is followed by the rest of APPEND in the state it leaves. -/
theorem appendCompacting_eq {s : State} {wlen : Int} {keep : Nat} (hb : s.windowBounds)
    (hkeep : (keep : Int) = s.readCursor.toInt - s.readCursor.toInt % s.granularity)
    (hgo : keep = 0 ∨ s.queue = []) :
    ∃ m, s.tailMovedTo keep m ∧ appendCompacting wlen s = appendTail wlen (s.dropped m keep) := by
  obtain ⟨hpos0, hcur0, hcurLen, -, hsum, -⟩ := hb
  have hcount := State.discardCount_compact hcurLen hkeep
  by_cases hz : keep = 0
  · subst hz
    refine ⟨s.storage, s.tailMovedTo_zero, ?_⟩
    rw [State.dropped_zero hcur0]
    exact State.discardWindow_none hcount _ _
  · have hkeepLe := s.keep_le_readCursor hkeep
    have hlen : (keep : Int) ≤ s.writeLen.toInt := by omega
    have hend : s.writePos.toInt + keep ≤ 2147483647 := (Int.add_le_add_left hkeepLe _).trans hsum
    refine ⟨_, State.tailMovedTo_dropSamples hlen, ?_⟩
    rw [← State.dropSamples_eq_dropped hlen hpos0 hend, ← hcount]
    exact State.discardWindow_drops (hcount ▸ hz) (hgo.resolve_left hz) _ _

/-- The bytes after the compacted window's tail is reserved: those up to the old and the new end of the window hold no
value (40_sample_buffer.md R190, R195). -/
theorem State.tailMovedTo.read_clear {s : State} {keep : Nat} {m : List Host.Cell} (hm : s.tailMovedTo keep m)
    {wlen : Int} (hwlen : 0 ≤ wlen) (a : Nat) :
    Memory.read (Memory.clear m ((s.writeLen.toInt - keep) * s.bytesPerSample).toNat
        ((s.writeLen.toInt - keep) * s.bytesPerSample + wlen * s.bytesPerSample).toNat) a
      = if (a : Int) < (s.writeLen.toInt - keep) * s.bytesPerSample
        then Memory.read s.storage (keep * s.bytesPerSample + a)
        else if (a : Int) < max s.writeLen.toInt (s.writeLen.toInt - keep + wlen) * s.bytesPerSample then none
        else Memory.read s.storage a := by
  have hgrown := s.samples_nonneg hwlen
  rw [max_mul_of_nonneg _ _ (Int.natCast_nonneg _), Int.add_mul, Memory.read_clear_toNat, hm a]
  by_cases hkept : (a : Int) < (s.writeLen.toInt - keep) * s.bytesPerSample
  · rw [if_neg (by omega), if_pos hkept, if_pos hkept]
  by_cases hold : (a : Int) < s.writeLen.toInt * s.bytesPerSample
  · simp only [hkept, hold, if_false, if_true, ite_self, lt_max_iff, true_or]
  · simp only [hkept, hold, not_lt.mp hkept, if_false, true_and, lt_max_iff, false_or]

/-- Settles O27: by the state the compaction leaves, where the rest of APPEND goes on. -/
theorem appendCompactsWhenItDoesNotFit : Obligations.AppendCompactsWhenItDoesNotFit := by
  intro s keep ⟨hl, hread⟩ hinv hwlen hover hkeep
  have hb := State.windowBounds_of_ready hinv hl
  have ⟨hpos0, hcur0, hcurLen, _, hsum, hsize⟩ := hb
  rw [exec_append_compacts hl hread hwlen hover]
  refine ⟨fun hne hqueue => ?_, fun hgo => ?_⟩
  · exact congrArg _ (State.discardWindow_waits (State.discardCount_compact hcurLen hkeep ▸ hne) hqueue _ _)
  have hkeepLe : (keep : Int) ≤ s.readCursor.toInt := s.keep_le_readCursor hkeep
  obtain ⟨m, hm, htail⟩ := appendCompacting_eq (wlen := s.arg0.toInt) hb hkeep hgo
  have hlenMax := (toInt_bounds s.writeLen).2
  have hlen : (s.dropped m keep).writeLen.toInt = s.writeLen.toInt - keep := ofInt_toInt (by omega) (by omega)
  have hcur : max (s.readCursor.toInt - keep) 0 = s.readCursor.toInt - keep := max_eq_left (by omega)
  rw [htail]
  refine ⟨fun hbig => ?_, fun hfits hoff => ⟨m, ?_, hm⟩, fun hfits hoff => ?_⟩
  · have hwlenMax := (toInt_bounds s.arg0).2
    have hcapMax : (s.capacity : Int) ≤ 2147483647 := (Int.ofNat_le.mpr s.capacity_le_sizeBytes).trans hsize
    have hend : s.writePos.toInt + keep ≤ 2147483647 := (Int.add_le_add_left hkeepLe _).trans hsum
    have hneed := (s.dropped m keep).fitInfo_toNat .info0 (v := s.writeLen.toInt - keep + s.arg0.toInt)
      (by omega) (by omega)
    have hroom := (s.dropped m keep).fitInfo_toNat .info1 (v := s.capacity) (by omega) (by omega)
    exact ⟨_, congrArg _ (appendTail_capacity hlen hbig), rfl, rfl, rfl, hneed, Int.ofNat_inj.mp hroom,
      ofInt_toInt (by omega) hend, hlen⟩
  · rw [appendTail_misaligned hlen hfits hoff, State.dropped, hcur]
    rfl
  · have hdrained : s.queue = [] := hgo.resolve_left (by omega)
    have hfree := State.noHazard_of_drained (s := s.dropped m keep) hdrained
    refine ⟨_, ?_, hm.read_clear hwlen⟩
    rw [appendTail_reserves hlen hfits hoff (by omega) hwlen hsize (hfree _ _), State.dropped, hcur]
    rfl

end Sys2Proof.Machine
end

section
/-! PROOF. The frames of the commands (60_exceptions.md R345, R350): what every next state a command answers has as
before, and which bytes of STORAGE. Each follows the branches of the command's own part, down to its faults, its hold
and its end. -/

namespace Sys2Proof.Machine

/-! ### How a command can end -/

/-- Every state a command's part ends in, completed, held or faulted, meets `R`. -/
def Exit.Ends (R : State → Prop) : Exit → Prop
  | .done t => R t
  | .trap t x => ∀ op, R (t.raise op x)

section
variable {R : State → Prop}

/-- A check of a command: it faults, or the command goes on. -/
theorem Exit.Ends.guard {c : Prop} [Decidable c] {u : State} {x : Trap} {e : Exit} (hfault : ∀ op x, R (u.raise op x))
    (he : ¬ c → e.Ends R) : (if c then .trap u x else e).Ends R := by
  split
  · exact fun op => hfault op x
  · exact he ‹_›

theorem Exit.Ends.andThen {e : Exit} {k : State → Exit} (he : e.Ends R)
    (hk : ∀ t, e = .done t → R t → (k t).Ends R) : (e.andThen k).Ends R := by
  cases e with
  | done t => exact hk t rfl he
  | trap t x => exact he

theorem Exit.Ends.imp {Q : State → Prop} {e : Exit} (he : e.Ends R) (h : ∀ t, R t → Q t) : e.Ends Q := by
  cases e with
  | done t => exact h t he
  | trap t x => exact fun op => h _ (he op)

theorem State.holdUntil_ends {s : State} {ready : Bool} {h : Held} {rest : State → Exit}
    (hhold : R { s with held := some h }) (hrest : (rest s).Ends R) : (s.holdUntil ready h rest).Ends R := by
  rcases s.holdUntil_cases ready h rest with ⟨-, he⟩ | ⟨-, he⟩
  · exact he ▸ hrest
  · exact he ▸ hhold

theorem State.discardWindow_ends {s : State} {p : Int} {h : Held} {rest : State → Exit}
    (hhold : R { s with held := some h }) (hrest : (rest s).Ends R)
    (hdrop : ∀ idx : Nat, (idx : Int) ≤ s.writeLen.toInt → (rest (s.dropSamples idx)).Ends R) :
    (s.discardWindow p h rest).Ends R := by
  rcases s.discardWindow_cases p h rest with ⟨-, he⟩ | ⟨-, -, he⟩ | ⟨hne, -, he⟩
  · exact he ▸ hrest
  · exact he ▸ hhold
  · exact he ▸ hdrop _ (s.discardCount_le p hne).2

theorem State.storeBytes_ends {s : State} {off : Nat} {bs : List Byte} (hfault : ∀ op x, R (s.raise op x))
    (hstore : R { s with storage := Memory.writeBytes s.storage off bs }) : (s.storeBytes off bs).Ends R := by
  rcases s.storeBytes_cases off bs with ⟨-, he⟩ | ⟨-, he⟩
  · exact he ▸ hstore
  · exact he ▸ fun op => hfault op _

/-- What holds of `s` whatever its fault registers and its hold are, and of every end of the command's own part, holds
of the state the command answers (60_exceptions.md R345). -/
theorem exec_ends {i : Instr} {s t : State} (h : exec i s = .next t) (hentry : ∀ u, R (s.faultLike u))
    (hbody : (∀ op x, R (s.raise op x)) → (bodyOf i s).Ends R) : R t := by
  have hends := hbody fun op x => hentry (s.raise op x)
  rw [exec_eq_issue] at h
  rcases issue_cases i (bodyOf i) s with ⟨-, he⟩ | ⟨-, x, he⟩ | ⟨-, -, -, he⟩ <;> rw [he] at h
  · cases h
    exact hentry s
  · cases h
    exact hentry (s.raise _ x)
  · rcases Exit.close_eq_next h with hdone | ⟨u, x, htrap, rfl⟩
    · rw [hdone] at hends
      exact hends
    · rw [htrap] at hends
      exact hends _

end

/-! ### The lifecycle commands -/

/-- Settles O57: INIT and CLOSE by their ends; SET_SOURCE clears no byte but the state block's. -/
theorem frameOfTheLifecycleCommands : Obligations.FrameOfTheLifecycleCommands := by
  intro s t
  refine ⟨?init, ?close, ?setSource⟩ <;> (intro h; apply exec_ends h)
  case init.hentry => exact fun _ => ⟨rfl, .inl rfl⟩
  case init.hbody =>
    intro hs
    exact .guard hs fun _ => .guard hs fun _ => .guard hs fun _ => .guard hs fun _ => ⟨rfl, .inr rfl⟩
  case close.hentry => exact fun _ => .inl rfl
  case close.hbody => exact fun _ => State.holdUntil_ends (.inl rfl) (.inr rfl)
  case setSource.hentry => exact fun _ => ⟨rfl, fun _ _ => rfl⟩
  case setSource.hbody =>
    intro hs
    refine .guard hs fun _ => .guard hs fun _ => .guard hs fun _ => ?_
    exact State.holdUntil_ends ⟨rfl, fun _ _ => rfl⟩ ⟨rfl, fun a ha => (Memory.read_clear ..).trans (if_neg ha)⟩

/-! ### The window commands -/

/-- What APPEND leaves (40_sample_buffer.md R190, R195): the window's registers and RES0 change, and no byte beyond the
window's end before and after. -/
def State.appendLeaves (s t : State) : Prop :=
  t = { s.faultLike t with
    storage := t.storage
    writePos := t.writePos
    writeLen := t.writeLen
    readCursor := t.readCursor
    res0 := t.res0 }
  ∧ ∀ a : Nat, s.windowEnd ≤ a → s.windowEnd + s.arg0.toInt * s.bytesPerSample ≤ a →
      Memory.read t.storage a = Memory.read s.storage a

/-- `s` with another window: its bytes and its cursors beside NEW. -/
def State.withWindow (s : State) (m : List Host.Cell) (pos len cur : Word) : State :=
  { s with storage := m, writePos := pos, writeLen := len, readCursor := cur }

@[simp] theorem State.withWindow_bytesPerSample (s : State) (m : List Host.Cell) (pos len cur : Word) :
    (s.withWindow m pos len cur).bytesPerSample = s.bytesPerSample := rfl

/-- The rest of APPEND, in any window that ends no later than that of `s`. -/
theorem appendTail_ends {s : State} {m : List Host.Cell} {pos len cur : Word}
    (hbytes : ∀ a : Nat, s.windowEnd ≤ a → Memory.read m a = Memory.read s.storage a)
    (hend : (s.withWindow m pos len cur).windowEnd ≤ s.windowEnd) :
    (appendTail s.arg0.toInt (s.withWindow m pos len cur)).Ends s.appendLeaves := by
  have hfault (op : BitVec 8) (x : Trap) : s.appendLeaves ((s.withWindow m pos len cur).raise op x) :=
    ⟨rfl, fun a ha _ => hbytes a ha⟩
  refine .guard hfault fun _ => .guard hfault fun _ => ?_
  split
  · exact fun op => hfault op _
  · refine ⟨rfl, fun a ha hgrown => ?_⟩
    rw [← hbytes a ha, State.withWindow_bytesPerSample]
    exact (Memory.read_clear_toNat m _ _ a).trans (if_neg (by omega))

/-- Dropping samples leaves the bytes beyond the window's end (40_sample_buffer.md R205). -/
theorem State.read_dropSamples_beyond {s : State} {idx : Nat} (hidx : (idx : Int) ≤ s.writeLen.toInt) {a : Nat}
    (ha : s.windowEnd ≤ a) : Memory.read (s.dropSamples idx).storage a = Memory.read s.storage a := by
  have hdropped := s.samples_nonneg (Int.natCast_nonneg idx)
  have hold : ¬ (a : Int) < s.writeLen.toInt * s.bytesPerSample := not_lt.mpr ha
  rw [State.tailMovedTo_dropSamples hidx a, if_neg (by rw [Int.sub_mul]; omega), if_neg hold]

/-- Dropping samples moves the window's end down. -/
theorem State.windowEnd_dropSamples_le {s : State} {idx : Nat} (hidx : (idx : Int) ≤ s.writeLen.toInt) :
    (s.dropSamples idx).windowEnd ≤ s.windowEnd := by
  have hmax := (toInt_bounds s.writeLen).2
  have hlen : (BitVec.ofNat 32 (s.writeLen.toInt.toNat - idx)).toInt ≤ s.writeLen.toInt := by
    rw [ofNat_toInt (by omega)]
    omega
  exact Int.mul_le_mul_of_nonneg_right hlen (Int.natCast_nonneg _)

theorem appendBody_ends (s : State) : (appendBody s).Ends s.appendLeaves := by
  have htail : (appendTail s.arg0.toInt s).Ends s.appendLeaves :=
    appendTail_ends (m := s.storage) (pos := s.writePos) (len := s.writeLen) (cur := s.readCursor) (fun _ _ => rfl)
      le_rfl
  refine .guard (fun _ _ => ⟨rfl, fun _ _ _ => rfl⟩) fun _ => ?_
  split
  · refine State.discardWindow_ends ⟨rfl, fun _ _ _ => rfl⟩ htail fun idx hidx => ?_
    exact appendTail_ends (fun _ => State.read_dropSamples_beyond hidx) (State.windowEnd_dropSamples_le hidx)
  · exact htail

/-- Settles O55: the bytes each clears or moves lie before the window's end, before or after. -/
theorem frameOfTheWindowCommands : Obligations.FrameOfTheWindowCommands := by
  intro s t
  refine ⟨fun h => exec_ends (R := s.appendLeaves) h (fun _ => ⟨rfl, fun _ _ _ => rfl⟩) fun _ => appendBody_ends s,
    ?undo, ?discard, ?flush⟩ <;> (intro h; apply exec_ends h; exact fun _ => ⟨rfl, fun _ _ => rfl⟩)
  case undo.hbody =>
    intro hs
    exact .guard hs fun _ => .guard hs fun _ =>
      ⟨rfl, fun a ha => (Memory.read_clear_toNat s.storage _ _ a).trans (if_neg ha)⟩
  case discard.hbody =>
    intro hs
    refine .guard hs fun _ => State.discardWindow_ends ⟨rfl, fun _ _ => rfl⟩ ⟨rfl, fun _ _ => rfl⟩ fun idx hidx => ?_
    exact ⟨rfl, fun _ => State.read_dropSamples_beyond hidx⟩
  case flush.hbody => exact fun _ => ⟨rfl, fun a ha => (Memory.read_clear ..).trans (if_neg (by omega))⟩

/-! ### The commands that store nothing -/

section
variable {R : State → Prop}

/-- HBUILD's loop changes the tables only (42_huffman.md R280). -/
theorem buildContexts_ends {s : State} (hfault : ∀ tab op x, R (State.raise { s with hTab := tab } op x))
    (hdone : ∀ tab, R { s with hTab := tab }) (ks : List Nat) : (buildContexts ks s).Ends R := by
  induction ks generalizing s with
  | nil => exact hdone s.hTab
  | cons k rest ih =>
    unfold buildContexts
    split
    · exact fun op => hfault s.hTab op _
    · exact ih hfault hdone

/-- VOPEN past its checks drains and opens (41_vadpcm.md R230). -/
theorem vopenBody_ends {s : State} (hfault : ∀ op x, R (s.raise op x))
    (hopen : ∀ c, (s.holdUntil s.drained (.vopen c) (vopenFinish c)).Ends R) : (vopenBody s).Ends R := by
  unfold vopenBody
  split
  · exact fun op => hfault op _
  · split
    · exact fun op => hfault op _
    · split
      · exact fun op => hfault op _
      · exact hopen _

/-- VJOB past its checks waits for room and issues its job (41_vadpcm.md R252). -/
theorem vjobBody_ends {s : State} (hfault : ∀ op x, R (s.raise op x))
    (hissue : ∀ j, (s.holdUntil s.queueHasRoom (.vjob j) (vjobFinish j)).Ends R) : (vjobBody s).Ends R := by
  refine .guard hfault fun _ => .guard hfault fun _ => .guard hfault fun _ => .guard hfault fun _ => ?_
  dsimp only
  split
  · exact fun op => hfault op _
  · split
    · exact fun op => hfault op _
    · exact hissue _

/-- VSEEK's end, with V_HIST and the cursors at any values (41_vadpcm.md R240). -/
theorem vseekFinish_ends {s : State} {offset : Int} (hfault : ∀ op x, R (s.raise op x))
    (hdone : ∀ hist pos cursor bit,
      R { s with vHist := hist, vDecPos := pos, vByteCursor := cursor, vBitPos := bit }) :
    (vseekFinish offset s).Ends R := by
  unfold vseekFinish
  split
  · exact hdone _ _ _ _
  · split
    · exact fun op => hfault op _
    · exact fun op => hfault op _
    · refine .guard hfault fun _ => ?_
      unfold restoreSkipEntry
      dsimp only
      split
      · exact fun op => hfault op _
      · exact fun op => hfault op _
      · exact hdone _ _ _ _

end

/-- Settles O54: every branch of these commands' own parts updates the named registers alone. -/
theorem frameOfTheRegisterCommands : Obligations.FrameOfTheRegisterCommands := by
  intro s t
  refine ⟨?setWidth, ?get, ?drain, ?readDone, ?vopen, ?vseek, ?vjob, ?hbuild⟩ <;>
    (intro h; apply exec_ends h; exact fun _ => rfl)
  case setWidth.hbody => exact fun hs => .guard hs fun _ => .guard hs fun _ => rfl
  case get.hbody =>
    intro hs
    refine .guard hs fun _ => .guard hs fun _ => .guard hs fun _ => .guard hs fun _ => .guard hs fun _ => ?_
    dsimp only
    split
    · exact .guard (fun _ _ => rfl) fun _ => rfl
    · unfold getContinuous
      dsimp only
      split
      · exact .guard (fun _ _ => rfl) fun _ => rfl
      · exact rfl
  case drain.hbody => exact fun _ => State.holdUntil_ends rfl rfl
  case readDone.hbody => exact fun _ => rfl
  case vopen.hbody => exact fun hs => vopenBody_ends hs fun _ => State.holdUntil_ends rfl rfl
  case vseek.hbody =>
    intro hs
    exact .guard hs fun _ => .guard hs fun _ => State.holdUntil_ends rfl (vseekFinish_ends hs fun _ _ _ _ => rfl)
  case vjob.hbody => exact fun hs => vjobBody_ends hs fun _ => State.holdUntil_ends rfl rfl
  case hbuild.hbody =>
    intro _
    refine .guard (fun _ _ => rfl) fun _ => .guard (fun _ _ => rfl) fun _ => ?_
    refine (buildContexts_ends (fun _ _ _ => rfl) (fun _ => rfl) _).andThen fun u _ hu => ?_
    rw [hu]
    rfl

/-! ### The commands that store at their destination -/

theorem Memory.read_writeBytes_outside {off n a : Nat} {bs : List Byte} (hlen : bs.length = n)
    (ha : ¬ (off ≤ a ∧ a < off + n)) (m : List Host.Cell) :
    Memory.read (Memory.writeBytes m off bs) a = Memory.read m a := by
  rw [Memory.read_writeBytes, hlen, if_neg ha]

theorem State.readStream_length {s : State} {off n : Nat} {bs : List Byte} (h : s.readStream off n = .ok bs) :
    bs.length = n := by
  unfold State.readStream at h
  split at h
  · cases h
    exact romRead_length ‹_›
  · cases h

/-- As many symbols are decoded as contexts are given (42_huffman.md R290). -/
theorem decodeSymbols_length {s : State} {ks : List Nat} {p q : Nat} {syms : List (BitVec 4)}
    (h : decodeSymbols s ks p = .ok (syms, q)) : syms.length = ks.length := by
  induction ks generalizing p syms with
  | nil =>
    cases h
    rfl
  | cons k rest ih =>
    simp only [decodeSymbols] at h
    split at h
    · cases h
    · split at h
      · cases h
      · rename_i hrest
        cases h
        exact congrArg Nat.succ (ih hrest)

theorem packNibbles_length : ∀ ns : List (BitVec 4), (packNibbles ns).length = ns.length / 2
  | [] => rfl
  | [_] => by simp [packNibbles]
  | hi :: lo :: rest => by
    rw [packNibbles, List.length_cons, packNibbles_length rest]
    simp only [List.length_cons]
    omega

/-- `t` is `s` but for the fault registers, the hold, V_BIT_POS and the bytes [lo, hi) of STORAGE. -/
def State.stagedIn (s : State) (lo hi : Nat) (t : State) : Prop :=
  t = { s.faultLike t with storage := t.storage, vBitPos := t.vBitPos }
  ∧ ∀ a : Nat, ¬ (lo ≤ a ∧ a < hi) → Memory.read t.storage a = Memory.read s.storage a

theorem State.stagedIn_faultLike (s : State) (lo hi : Nat) (u : State) : s.stagedIn lo hi (s.faultLike u) :=
  ⟨rfl, fun _ _ => rfl⟩

theorem State.stagedIn_raise (s : State) (lo hi : Nat) (op : BitVec 8) (x : Trap) : s.stagedIn lo hi (s.raise op x) :=
  ⟨rfl, fun _ _ => rfl⟩

theorem State.stagedIn.mono {s t : State} {lo hi lo' hi' : Nat} (h : s.stagedIn lo hi t) (hlo : lo' ≤ lo)
    (hhi : hi ≤ hi') : s.stagedIn lo' hi' t := by
  obtain ⟨hregs, hbytes⟩ := h
  exact ⟨hregs, fun a ha => hbytes a (by omega)⟩

theorem State.stagedIn.trans {s t u : State} {lo hi : Nat} (h : s.stagedIn lo hi t) (h' : t.stagedIn lo hi u) :
    s.stagedIn lo hi u := by
  obtain ⟨ht, hbytes⟩ := h
  obtain ⟨hu, hbytes'⟩ := h'
  refine ⟨?_, fun a ha => (hbytes' a ha).trans (hbytes a ha)⟩
  rw [hu, ht]

/-- A block's 9 bytes are stored at its destination, or none is (42_huffman.md R290). -/
theorem hdecodeBlock_ends (dst : Nat) (s : State) : (hdecodeBlock dst s).Ends (s.stagedIn dst (dst + 9)) := by
  have hfault := s.stagedIn_raise dst (dst + 9)
  refine .guard hfault fun _ => .guard hfault fun _ => .guard hfault fun _ => .guard hfault fun _ => ?_
  split
  · exact fun op => hfault op _
  · split
    · exact fun op => hfault op _
    · rename_i syms p hsyms
      have hlen : (packNibbles syms).length = 9 := by rw [packNibbles_length, decodeSymbols_length hsyms]; rfl
      refine Exit.Ends.andThen (State.storeBytes_ends hfault ⟨rfl, fun a ha => ?_⟩) ?_
      · exact Memory.read_writeBytes_outside hlen ha _
      · exact fun t _ ⟨hregs, hbytes⟩ => ⟨by rw [hregs], hbytes⟩

/-- Blocks are stored one after another, up to the first that is refused (41_vadpcm.md R245). -/
theorem stageBlocks_ends {dst hi n b : Nat} (hin : dst + 9 * (b + n) ≤ hi) (s : State) :
    (stageBlocks dst n b s).Ends (s.stagedIn dst hi) := by
  induction n generalizing b s with
  | zero => exact s.stagedIn_faultLike dst hi s
  | succ n ih =>
    have hblock := (hdecodeBlock_ends (dst + 9 * b) s).imp fun t ht =>
      ht.mono (lo' := dst) (hi' := hi) (by omega) (by omega)
    exact hblock.andThen fun t _ ht => (ih (by omega) t).imp fun u hu => ht.trans hu

theorem stageRaw_ends (dst nb : Nat) (s : State) : (stageRaw dst nb s).Ends (s.stagedIn dst (dst + nb)) := by
  have hfault := s.stagedIn_raise dst (dst + nb)
  unfold stageRaw
  split
  · exact fun op => hfault op _
  · split
    · exact fun op => hfault op _
    · rename_i hread
      exact State.storeBytes_ends hfault
        ⟨rfl, fun a ha => Memory.read_writeBytes_outside (State.readStream_length hread) ha _⟩

/-- VSTAGE's bytes, unpacked or copied: 9 for each frame and channel (41_vadpcm.md R245). -/
theorem staging_ends (dst frames : Nat) (s : State) :
    (if s.vEntropy then stageBlocks dst (frames * s.vChannels.toNat) 0 s
      else stageRaw dst (frames * 9 * s.vChannels.toNat) s).Ends
      (s.stagedIn dst (dst + frames * 9 * s.vChannels.toNat)) := by
  split
  · exact stageBlocks_ends (by rw [Nat.zero_add, Nat.mul_right_comm, Nat.mul_comm 9]) s
  · exact stageRaw_ends dst _ s

theorem vstageTrap_eq_none_nonneg {s : State} (h : vstageTrap s = none) : 0 ≤ s.arg1.toInt := by
  by_contra hneg
  exact absurd h (by simp [vstageTrap, not_le.mp hneg])

/-- Settles O56: the bytes each command stores are as many as its count says. -/
theorem frameOfTheStoringCommands : Obligations.FrameOfTheStoringCommands := by
  intro s t
  refine ⟨?scopy, fun h => exec_ends (R := s.stagedIn _ _) h (s.stagedIn_faultLike _ _) fun _ => hdecodeBlock_ends _ s,
    ?vstage⟩ <;> (intro h; apply exec_ends h; exact fun _ => ⟨rfl, fun _ _ => rfl⟩)
  case scopy.hbody =>
    intro hs
    refine .guard hs fun hnonneg => .guard hs fun _ => ?_
    split
    · exact fun op => hs op _
    · split
      · exact fun op => hs op _
      · rename_i hread
        have hn : (s.arg2.toInt.toNat : Int) = s.arg2.toInt := Int.toNat_of_nonneg (not_lt.mp hnonneg)
        refine State.storeBytes_ends hs ⟨rfl, fun a ha => ?_⟩
        have hout : ¬ (s.arg0.toNat ≤ a ∧ a < s.arg0.toNat + s.arg2.toInt.toNat) := by omega
        exact Memory.read_writeBytes_outside (State.readStream_length hread) hout _
  case vstage.hbody =>
    intro hs
    unfold bodyOf vstageBody
    dsimp only
    split
    · exact fun op => hs op _
    rename_i hpass
    have hnb : ((s.arg1.toInt.toNat * 9 * s.vChannels.toNat : Nat) : Int) = s.arg1.toInt * 9 * s.vChannels.toNat := by
      push_cast [Int.toNat_of_nonneg (vstageTrap_eq_none_nonneg hpass)]
      rfl
    refine ((staging_ends s.arg0.toNat s.arg1.toInt.toNat s).imp ?_).andThen ?_
    · exact fun u ⟨hregs, hbytes⟩ => ⟨by rw [hregs], fun a ha => hbytes a (by omega)⟩
    · exact fun u _ ⟨hregs, hbytes⟩ => ⟨by rw [hregs]; rfl, hbytes⟩

end Sys2Proof.Machine
end

section
/-! PROOF. The prediction (41_vadpcm.md R256): causal, clamped, and the residuals alone under a zero codebook. -/

namespace Sys2Proof.Machine

/-- Under a zero codebook every output is its clamped residual, whatever the predictor, the history and the outputs
before it (41_vadpcm.md R256 item 3). -/
theorem predict_zero_codebook (P : Predictor) {coef : List (List Int)} (hzero : ∀ row ∈ coef, ∀ v ∈ row, v = 0)
    (order : Nat) (hist e : List Int) : predict P coef order hist e = e.map clamp16 := by
  have hfrom (past earlier : List Int) : predictFrom P coef order past earlier e = e.map clamp16 := by
    induction e generalizing past earlier with
    | nil => rfl
    | cons r rest ih =>
      have hsample := predictSample_of_zero_part (dotPart_zero_codebook P hzero order past (r :: earlier))
      simp only [predictFrom, hsample, ih, List.map_cons]
  exact hfrom hist.reverse []

/-- Settles O39: nothing is used of the block's own predictor. -/
theorem zeroCodebookPredictsTheResiduals : Obligations.ZeroCodebookPredictsTheResiduals :=
  fun _ order hist e hzero => predict_zero_codebook ownPredictor hzero order hist e

/-- Output k is made before any residual after e[k] is looked at (41_vadpcm.md R256 item 1). -/
theorem predictFrom_causal (P : Predictor) (coef : List (List Int)) (order : Nat) {k : Nat} {e e' : List Int}
    (h : e.take (k + 1) = e'.take (k + 1)) (past earlier : List Int) :
    (predictFrom P coef order past earlier e)[k]? = (predictFrom P coef order past earlier e')[k]? := by
  induction e generalizing k e' past earlier with
  | nil =>
    cases e' with
    | nil => rfl
    | cons r' rest' => simp at h
  | cons r rest ih =>
    cases e' with
    | nil => simp at h
    | cons r' rest' =>
      obtain ⟨rfl, htake⟩ := List.cons.inj h
      cases k with
      | zero => rfl
      | succ k => exact ih htake _ _

/-- Every output is a clamped, shifted accumulator (41_vadpcm.md R256 item 2). -/
theorem predictFrom_clamped (P : Predictor) (coef : List (List Int)) (order : Nat) {k : Nat} {e : List Int}
    (hk : k < e.length) (past earlier : List Int) :
    ∃ acc : Int, (predictFrom P coef order past earlier e)[k]? = some (clamp16 (acc / 2 ^ P.fracBits)) := by
  induction e generalizing k past earlier with
  | nil => cases hk
  | cons r rest ih =>
    cases k with
    | zero => exact ⟨_, rfl⟩
    | succ k => exact ih (Nat.lt_of_succ_lt_succ hk) _ _

/-- Settles O40, by the recursion of the prediction over the residuals. -/
theorem predictionIsCausalAndClamped : Obligations.PredictionIsCausalAndClamped := fun coef order hist _ _ _ =>
  ⟨fun h => predictFrom_causal ownPredictor coef order h hist.reverse [],
    fun hk => predictFrom_clamped ownPredictor coef order hk hist.reverse []⟩

end Sys2Proof.Machine
end

section
/-! PROOF. VOPEN (41_vadpcm.md R230): the checks that stand before a command's own effects, decided in their order, and
what VOPEN leaves when all of them pass. -/

namespace Sys2Proof.Machine

/-! ### Checks in their order -/

theorem allPass_cons_iff {p : Prop} {t : Trap} {rest : List (Prop × Trap)} :
    allPass ((p, t) :: rest) ↔ ¬ p ∧ allPass rest := List.forall_mem_cons

theorem allPass_append_iff {checks rest : List (Prop × Trap)} :
    allPass (checks ++ rest) ↔ allPass checks ∧ allPass rest := List.forall_mem_append

theorem firstFailing_append_iff {checks rest : List (Prop × Trap)} {x : Trap} :
    firstFailing (checks ++ rest) x ↔ firstFailing checks x ∨ (allPass checks ∧ firstFailing rest x) := by
  induction checks with
  | nil => simp [firstFailing, allPass]
  | cons c checks ih =>
    obtain ⟨p, t⟩ := c
    rw [List.cons_append, firstFailing, firstFailing, ih, allPass_cons_iff]
    tauto

/-- `e` is what the checks, made in their order, decide: the fault of the first that fails, and `pass` where all of them
pass (60_exceptions.md R345). -/
def CheckedBy {α : Type} (fault : Trap → α) (pass : α) (checks : List (Prop × Trap)) (e : α) : Prop :=
  (∀ x, firstFailing checks x → e = fault x) ∧ (allPass checks → e = pass)

section
variable {α : Type} {fault : Trap → α} {pass e : α} {checks rest : List (Prop × Trap)}

theorem CheckedBy.nil : CheckedBy fault pass [] pass := ⟨nofun, fun _ => rfl⟩

/-- A check that decides where it fails, and leaves the decision to the rest where it passes. -/
theorem CheckedBy.step {p : Prop} {t : Trap} (hfail : p → e = fault t) (hgo : ¬ p → CheckedBy fault pass rest e) :
    CheckedBy fault pass ((p, t) :: rest) e := by
  refine ⟨fun x hx => ?_, fun hall => ?_⟩
  · rcases hx with ⟨hp, rfl⟩ | ⟨hp, hx⟩
    · exact hfail hp
    · exact (hgo hp).1 x hx
  · obtain ⟨hp, hall⟩ := allPass_cons_iff.mp hall
    exact (hgo hp).2 hall

theorem CheckedBy.cons {p q : Prop} [Decidable q] {t : Trap} (h : p ↔ q) (he : CheckedBy fault pass rest e) :
    CheckedBy fault pass ((p, t) :: rest) (if q then fault t else e) :=
  .step (fun hp => if_pos (h.mp hp)) fun hp => (if_neg (mt h.mpr hp)).symm ▸ he

/-- Checks made together, and the checks that come after them. -/
theorem CheckedBy.append {o : Option Trap} (ho : CheckedBy some none checks o)
    (hfail : ∀ t, o = some t → e = fault t) (hgo : o = none → CheckedBy fault pass rest e) :
    CheckedBy fault pass (checks ++ rest) e := by
  obtain ⟨hofails, hopass⟩ := ho
  refine ⟨fun x hx => ?_, fun hall => ?_⟩
  · rcases firstFailing_append_iff.mp hx with hx | ⟨hall, hx⟩
    · exact hfail x (hofails x hx)
    · exact (hgo (hopass hall)).1 x hx
  · obtain ⟨hall, hrest⟩ := allPass_append_iff.mp hall
    exact (hgo (hopass hall)).2 hrest

end

/-! ### Reads of HEADER -/

/-- A read of HEADER inside its length (20_memory.md R84). -/
theorem State.readHeader_inside {s : State} {off n : Nat} (h : off + n ≤ s.header.length) :
    s.readHeader off n = .ok ((s.header.drop off).take n) := by
  rw [State.readHeader, romRead_eq_some h]

/-- A read of HEADER that runs beyond its length names its start (20_memory.md R84; assumption 11). -/
theorem State.readHeader_beyond {s : State} {off n : Nat} (hn : n ≠ 0) (h : s.header.length < off + n) :
    s.readHeader off n = .error ⟨.config, off, s.header.length⟩ := by
  rw [State.readHeader, romRead, if_neg hn, if_neg (Nat.not_le.mpr h)]

/-! ### VOPEN -/

theorem configChannels_toNat (w : Word) : (configChannels w).toNat = if w.getLsbD 9 then 2 else 1 := by
  unfold configChannels
  split <;> rfl

theorem configReserved_ne_zero_iff (w : Word) : configReserved w ≠ 0 ↔ w.extractLsb' 11 5 ≠ 0 :=
  not_congr (BitVec.toNat_inj (y := 0))

/-- What a VOPEN that passes its checks latches (41_vadpcm.md R230). -/
def State.vopenConfig (s : State) : VConfig where
  order := configOrder s.arg0
  pcount := configPcount s.arg0
  channels := configChannels s.arg0
  entropy := configEntropy s.arg0
  version := configVersion s.arg0
  length := s.arg1
  skipBase := (configPcount s.arg0).toNat * (configOrder s.arg0).toNat * 16 + s.arg2.toNat
  skipCount := BitVec.ofNat 32 (beNat ((s.header.drop
    ((configPcount s.arg0).toNat * (configOrder s.arg0).toNat * 16 + s.arg2.toNat)).take 4))

theorem vopenFieldTrap_checked (s : State) : CheckedBy some none (s.vopenChecks.take 5) (vopenFieldTrap s) :=
  .cons (configReserved_ne_zero_iff _).symm <| .cons .rfl <| .cons .rfl <| .cons .rfl <| .cons .rfl .nil

theorem vopenStateTrap_checked (s : State) :
    CheckedBy some none ((s.vopenChecks.drop 5).take 5) (vopenStateTrap s) := by
  simp only [vopenStateTrap, configChannels_toNat, stateBlockSize]
  exact .cons .rfl <| .cons .rfl <| .cons (Bool.not_eq_true _ ▸ .rfl) <| .cons .rfl <| .cons .rfl .nil

theorem vopenHeader_checked (s : State) :
    CheckedBy .error (.ok s.vopenConfig) (s.vopenChecks.drop 10) (vopenHeader s) := by
  simp only [vopenHeader, configChannels_toNat]
  refine .cons .rfl <| .cons .rfl <| .step (fun hout => ?_) fun hin => ?_
  · rw [State.readHeader_beyond four_ne_zero hout]
  · rw [State.readHeader_inside (Nat.le_of_not_lt hin)]
    exact .cons .rfl .nil

/-- VOPEN's own part: its checks in their order, and then the hold for the queue (41_vadpcm.md R230). -/
theorem vopenBody_checked (s : State) :
    CheckedBy (.trap s) (s.holdUntil s.drained (.vopen s.vopenConfig) (vopenFinish s.vopenConfig)) s.vopenChecks
      (vopenBody s) := by
  refine (vopenFieldTrap_checked s).append (fun t ht => ?_) fun hfield =>
    (vopenStateTrap_checked s).append (fun t ht => ?_) fun hstate => ⟨fun x hx => ?_, fun hall => ?_⟩
  · simp only [vopenBody, ht]
  · simp only [vopenBody, hfield, ht]
  · simp only [vopenBody, hfield, hstate, (vopenHeader_checked s).1 x hx]
  · simp only [vopenBody, hfield, hstate, (vopenHeader_checked s).2 hall]

/-- Settles O59: R230's checks are made one after another, up to the hold. -/
theorem vopenChecksInOrder : Obligations.VopenChecksInOrder := by
  intro s x ⟨hl, hread⟩ hx
  have hexec : exec .vopen s = (vopenBody s).close 0x20 := exec_host rfl hl hread
  rw [hexec, (vopenBody_checked s).1 x hx]
  rfl

theorem State.vopenPasses.checks {s : State} {o pc ch count : Nat} (h : s.vopenPasses o pc ch count) :
    allPass s.vopenChecks := by
  obtain ⟨-, hrsv, rfl, ho, ho', rfl, hpc, hpc', rfl, hversion, hlength, hwidth, hsource, hflushed, hwc, hsize,
    hcontexts, hskip, rfl, htable, -⟩ := h
  simp only [State.vopenChecks, List.cons_append, List.nil_append, allPass_cons_iff]
  simp only [hrsv, hversion, hwidth, hsource, hflushed, hwc, hsize, not_true_eq_false, not_false_eq_true, true_and,
    ne_eq, reduceCtorEq, not_and, not_lt, not_or]
  exact ⟨⟨ho, ho'⟩, ⟨hpc, hpc'⟩, hlength, by omega, hcontexts, hskip, htable, nofun⟩

/-- The operands of a VOPEN that passes, as it latches them (41_vadpcm.md R230). -/
theorem State.vopenPasses.config {s : State} {o pc ch count : Nat} (h : s.vopenPasses o pc ch count) :
    s.vopenConfig = {
      order := BitVec.ofNat 4 o
      pcount := BitVec.ofNat 5 pc
      channels := BitVec.ofNat 2 ch
      entropy := s.arg0.getLsbD 10
      version := s.arg0.extractLsb' 16 16
      length := s.arg1
      skipBase := pc * o * 16 + s.arg2.toNat
      skipCount := BitVec.ofNat 32 count } := by
  obtain ⟨-, -, rfl, -, -, rfl, -, -, rfl, -, -, -, -, -, -, -, -, -, rfl, -, -⟩ := h
  rw [← configChannels_toNat]
  simp only [State.vopenConfig, BitVec.ofNat_toNat, BitVec.setWidth_eq]

/-- Settles O31: all checks pass, and what is latched is what the operands say. -/
theorem vopenOpensAtPositionZero : Obligations.VopenOpensAtPositionZero := by
  intro s o pc ch count h
  have hexec : exec .vopen s = (s.holdUntil s.drained (.vopen s.vopenConfig) (vopenFinish s.vopenConfig)).close 0x20 :=
    (exec_host rfl h.1.1 h.1.2).trans (congrArg (Exit.close 0x20) ((vopenBody_checked s).2 h.checks))
  rw [hexec, h.config]
  obtain ⟨-, -, -, -, ho, -, -, -, hch, -, -, -, -, -, -, -, -, -, -, -, hbase⟩ := h
  have hch4 : ch < 4 := by split at hch <;> omega
  have hzero : zeroHistory (BitVec.ofNat 2 ch).toNat (BitVec.ofNat 4 o).toNat
      = List.replicate ch (List.replicate o 0) := by
    rw [zeroHistory, BitVec.toNat_ofNat, BitVec.toNat_ofNat, Nat.mod_eq_of_lt hch4, Nat.mod_eq_of_lt (by omega)]
  refine ⟨fun hqueue => ?_, fun hqueue => ?_⟩
  · rw [Bool.eq_false_iff.mpr (mt s.drained_iff.mp hqueue)]
    rfl
  · rw [s.drained_iff.mpr hqueue, State.holdUntil_true, vopenFinish, s.fitU32_ofNat .skipBase hbase, hzero]
    rfl

end Sys2Proof.Machine
end

section
/-! PROOF. VSEEK (41_vadpcm.md R240): the zero point, and the first matching entry of the skip table (R238). -/

namespace Sys2Proof.Machine

/-! ### VSEEK's checks and its zero point -/

/-- Settles O32: the two checks, the hold, and the zero point's branch. -/
theorem vseekZeroResetsTheDecoder : Obligations.VseekZeroResetsTheDecoder := by
  intro s ⟨hl, hread⟩
  have hexec : exec .vseek s = (vseekBody s).close 0x21 := exec_source rfl hl hread
  refine ⟨fun hneg => ?_, fun hpos hclosed => ?_, fun hpos hopen hqueue => ?_, fun hzero hopen hqueue => ?_⟩
  · exact hexec.trans (congrArg _ (if_pos hneg))
  · exact hexec.trans (congrArg _ ((if_neg (not_lt.mpr hpos)).trans (if_pos hclosed)))
  · have hwait : s.drained = false := Bool.eq_false_iff.mpr (mt s.drained_iff.mp hqueue)
    simp [hexec, vseekBody, not_lt.mpr hpos, hopen, hwait, State.holdUntil_false]
  · rw [exec_vseek_drained hl hread (le_of_eq hzero.symm) hopen hqueue, vseekFinish, if_pos hzero]
    rfl

/-! ### The skip table -/

theorem le_skipEntrySize (channels order : Nat) : 8 + 2 * channels * order ≤ skipEntrySize channels order := by
  have hround := le_roundUp (2 * channels * order : Nat) (g := 4) (by decide)
  rw [skipEntrySize]
  omega

theorem State.skipEntryAt_succ (s : State) (e : Nat) :
    s.skipEntryAt (e + 1) = s.skipEntryAt e + skipEntrySize s.vChannels.toNat s.vOrder.toNat := by
  rw [State.skipEntryAt, State.skipEntryAt]
  ring

/-- Every entry of a skip table inside HEADER lies inside HEADER. -/
theorem State.skipEntry_inside {s : State} (hfits : s.skipTableFits) {e : Nat} (he : e < s.vSkipCount.toNat) :
    s.skipEntryAt e + (8 + 2 * s.vChannels.toNat * s.vOrder.toNat) ≤ s.header.length := by
  have hsize := le_skipEntrySize s.vChannels.toNat s.vOrder.toNat
  have hlast : s.skipEntryAt (e + 1) ≤ s.skipEntryAt s.vSkipCount.toNat :=
    Nat.add_le_add_left (Nat.mul_le_mul_right _ he) _
  rw [s.skipEntryAt_succ] at hlast
  omega

/-- The search of a skip table inside HEADER ends without a fault, at the first matching entry (41_vadpcm.md R238). -/
theorem findSkipEntry_eq_find? {s : State} (hfits : s.skipTableFits) {target n e : Nat}
    (hn : e + n ≤ s.vSkipCount.toNat) :
    findSkipEntry s target n e = .ok ((List.range' e n).find? fun e' => s.skipMatches e' target) := by
  induction n generalizing e with
  | zero => rfl
  | succ n ih =>
    have hin := State.skipEntry_inside hfits (e := e) (by omega)
    rw [findSkipEntry, State.readHeader_inside (by omega), List.range'_succ, List.find?_cons, ih (by omega)]
    by_cases hmatch : beNat ((s.header.drop (s.skipEntryAt e)).take 4) = target
    · simp [hmatch]
    · simp [hmatch]

/-! ### The history in an entry -/

theorem beNat_pair (hi lo : Byte) : beNat [hi, lo] = hi.toNat * 256 + lo.toNat := by
  simp [beNat]

/-- The s16 values of a byte list, by their places (20_memory.md R86). -/
theorem getElem?_halvesOf (bytes : List Byte) {i : Nat} (hi : 2 * i + 2 ≤ bytes.length) :
    (halvesOf bytes)[i]? = some (BitVec.ofNat 16 (beNat ((bytes.drop (2 * i)).take 2))) := by
  induction i generalizing bytes with
  | zero =>
    match bytes, hi with
    | hi :: lo :: rest, _ => simp [halvesOf, beNat_pair]
  | succ i ih =>
    match bytes, hi with
    | hi :: lo :: rest, h =>
      rw [halvesOf, List.getElem?_cons_succ, ih rest (by simp only [List.length_cons] at h; omega)]
      rfl

theorem getD_groupsOf {α : Type} (n : Nat) {k c : Nat} (l : List α) (hc : c < k) :
    (groupsOf n k l).getD c [] = (l.drop (n * c)).take n := by
  simp [groupsOf, List.getD_eq_getElem?_getD, hc]

/-- The history that skip table entry `e` holds (41_vadpcm.md R238). -/
def State.skipHistory (s : State) (e : Nat) : List (List Half) :=
  groupsOf s.vOrder.toNat s.vChannels.toNat
    (halvesOf ((s.header.drop (s.skipEntryAt e + 8)).take (2 * s.vChannels.toNat * s.vOrder.toNat)))

section
variable {s : State} {e : Nat}
  (hin : s.skipEntryAt e + (8 + 2 * s.vChannels.toNat * s.vOrder.toNat) ≤ s.header.length)
include hin

/-- Sample j of channel c is the s16 at its place in the entry (41_vadpcm.md R238). -/
theorem State.skipHistory_sample {c j : Nat} (hc : c < s.vChannels.toNat) (hj : j < s.vOrder.toNat) :
    ((s.skipHistory e).getD c [])[j]? = some (BitVec.ofNat 16
      (beNat ((s.header.drop (s.skipEntryAt e + 8 + (c * s.vOrder.toNat + j) * 2)).take 2))) := by
  have hrow : (c + 1) * s.vOrder.toNat ≤ s.vChannels.toNat * s.vOrder.toNat := Nat.mul_le_mul_right _ hc
  have hplace : 2 * (s.vOrder.toNat * c + j) + 2 ≤ 2 * s.vChannels.toNat * s.vOrder.toNat := by linarith
  rw [State.skipHistory, getD_groupsOf _ _ hc, List.getElem?_take_of_lt hj, List.getElem?_drop, getElem?_halvesOf]
  · rw [List.drop_take, List.take_take, List.drop_drop, Nat.min_eq_left (by omega), Nat.mul_comm _ c, Nat.mul_comm 2]
  · rw [List.length_take, List.length_drop]
    omega

/-- VSEEK's restoration from an entry inside HEADER (41_vadpcm.md R240). -/
theorem restoreSkipEntry_inside {offset : Word} (hoff : 0 ≤ offset.toInt) :
    restoreSkipEntry offset.toInt e s = .done { s with
      vHist := some (s.skipHistory e)
      vBitPos := BitVec.ofNat 32 (beNat ((s.header.drop (s.skipEntryAt e + 4)).take 4))
      vDecPos := offset
      vByteCursor := BitVec.ofInt 32 (offset.toInt / 16 * 9 * s.vChannels.toNat) } := by
  have hch := s.vChannels.isLt
  have hmax := (toInt_bounds offset).2
  have hcursor : s.fitU32 .byteCursor (offset.toInt / 16 * 9 * s.vChannels.toNat)
      = BitVec.ofInt 32 (offset.toInt / 16 * 9 * s.vChannels.toNat) := by
    obtain ⟨hlo, hhi⟩ : 0 ≤ offset.toInt / 16 * 9 ∧ offset.toInt / 16 * 9 ≤ 1207959543 := by omega
    exact s.fitU32_eq _ (mul_nonneg hlo (Int.natCast_nonneg _)) (by nlinarith)
  rw [restoreSkipEntry, State.readHeader_inside (by omega), State.readHeader_inside (by omega), hcursor,
    BitVec.ofInt_toInt]
  rfl

end

/-- Settles O33: the search ends at the first matching entry, which lies inside HEADER. -/
theorem vseekRestoresTheFirstMatchingEntry : Obligations.VseekRestoresTheFirstMatchingEntry := by
  intro s ⟨hl, hread⟩ hpos hopen hqueue hfits
  obtain ⟨target, htarget⟩ : ∃ n : Nat, s.arg0.toInt = n := ⟨s.arg0.toInt.toNat, by omega⟩
  rw [exec_vseek_drained hl hread hpos.le hopen hqueue, vseekFinish, if_neg hpos.ne',
    findSkipEntry_eq_find? hfits (Nat.zero_add _).le, ← List.range_eq_range']
  refine ⟨fun hnone => ?_, fun e he hmatch hfirst => ?_⟩
  · rw [List.find?_range_eq_none.mpr (by simpa [htarget] using hnone)]
    rfl
  · rw [List.find?_range_eq_some.mpr ⟨by simpa [htarget] using hmatch, List.mem_range.mpr he,
      by simpa [htarget] using hfirst⟩]
    have hin := State.skipEntry_inside hfits he
    refine ⟨fun hoff => congrArg _ (if_pos hoff), fun hgrid => ⟨s.skipHistory e, ?_, ?_, fun c hc j hj => ?_⟩⟩
    · exact congrArg _ ((if_neg (not_not.mpr hgrid)).trans (restoreSkipEntry_inside hin hpos.le))
    · simp [State.skipHistory, groupsOf]
    · exact State.skipHistory_sample hin hc hj

end Sys2Proof.Machine
end

section
/-! PROOF. VSTAGE (41_vadpcm.md R245): its checks in their order, the raw copy, and the entropy-coded blocks, each of
which is HDECODE's work (42_huffman.md R290). -/

namespace Sys2Proof.Machine

/-! ### VSTAGE's checks -/

theorem vstageTrap_checked (s : State) : CheckedBy some none s.vstageChecks (vstageTrap s) :=
  .cons .rfl <| .cons .rfl <| .cons .rfl <| .cons .rfl <| .cons .rfl <| .cons .rfl <| .cons .rfl .nil

theorem exec_vstage {s : State} (h : s.sourceMayIssue) : exec .vstage s = (vstageBody s).close 0x22 :=
  exec_source rfl h.1 h.2

section
variable {s : State} (hpass : allPass s.vstageChecks)
include hpass

/-- VSTAGE past its checks stages the frames and moves the frame-level cursors (41_vadpcm.md R245). -/
theorem vstageBody_passes :
    vstageBody s = (if s.vEntropy then stageBlocks s.arg0.toNat (s.arg1.toInt.toNat * s.vChannels.toNat) 0 s
      else stageRaw s.arg0.toNat s.stagedBytes s).andThen
      fun t => .done (t.advanceStaged s.arg1.toInt.toNat s.stagedBytes) := by
  simp only [vstageBody, (vstageTrap_checked s).2 hpass]

theorem State.frames_nonneg_of_vstageChecks : 0 ≤ s.arg1.toInt := by
  rw [State.vstageChecks, allPass_cons_iff] at hpass
  exact not_lt.mp hpass.1

/-- The staged bytes lie inside the window, and so inside STORAGE (10_state.md R46). -/
theorem State.staged_inside_of_vstageChecks (hbounds : s.windowBounds) :
    s.arg0.toNat + s.stagedBytes ≤ s.sizeBytes.toNat ∧ (s.sizeBytes.toNat : Int) ≤ posMax := by
  simp only [State.vstageChecks, allPass_cons_iff] at hpass
  obtain ⟨-, -, -, hin, -⟩ := hpass
  obtain ⟨-, -, -, hcap, -, hsize⟩ := hbounds
  have hend : s.windowEnd ≤ s.sizeBytes.toNat := s.samples_le_sizeBytes hcap
  exact ⟨by omega, hsize⟩

end

/-- The frame-level cursors past the staged frames, where both fit their registers (10_state.md R58, R59). -/
theorem State.advanceStaged_eq {t : State} {frames : Int} {nb : Nat} (hframes : 0 ≤ frames)
    (hcursor : t.vByteCursor.toNat + nb < 2 ^ 32) :
    t.advanceStaged frames.toNat nb = { t with
      vByteCursor := BitVec.ofNat 32 (t.vByteCursor.toNat + nb)
      vDecPos := BitVec.ofInt 32 (t.vDecPos.toInt + 16 * frames) } := by
  rw [State.advanceStaged, ← Int.natCast_add, t.fitU32_ofNat .byteCursor hcursor, Int.toNat_of_nonneg hframes]

/-! ### Raw frames -/

/-- Settles O34: the window's end is inside STORAGE, so the store passes its own check. -/
theorem vstageCopiesRawFrames : Obligations.VstageCopiesRawFrames := by
  intro s hissue hinv
  have hbounds := State.windowBounds_of_ready hinv hissue.1
  rw [exec_vstage hissue]
  refine ⟨fun x hx => ?_, fun hpass hraw => ?_⟩
  · simp only [vstageBody, (vstageTrap_checked s).1 x hx, Exit.close_trap]
  obtain ⟨hin, -⟩ := State.staged_inside_of_vstageChecks hpass hbounds
  rw [vstageBody_passes hpass, if_neg (Bool.eq_false_iff.mp hraw), stageRaw]
  refine ⟨fun hhazard => ?_, fun hfree => ?_⟩
  · obtain ⟨j, hj, hover, hat⟩ := State.exists_hazard hhazard
    exact ⟨j, hj, hover, by simp only [hat, Exit.andThen_trap, Exit.close_trap]⟩
  rw [(s.hazardAt_eq_none_iff_noHazard _ _).mpr hfree]
  refine ⟨fun hne hbeyond => ?_, fun hfits hcursor => ⟨_, ?_, Memory.read_writeBytes_slice hfits s.storage _⟩⟩
  · simp only [State.readStream_beyond hne hbeyond, Exit.andThen_trap, Exit.close_trap]
  · have hstore := State.storeBytes_inside (s := s) (off := s.arg0.toNat)
      (bs := (s.stream.drop s.vByteCursor.toNat).take s.stagedBytes)
      (.inr (by rw [State.storageSize, List.length_take]; omega))
    simp only [State.readStream_inside hfits, hstore, Exit.andThen_done, Exit.close_done]
    exact congrArg _ (State.advanceStaged_eq (t := s.withStorage _) (State.frames_nonneg_of_vstageChecks hpass) hcursor)

/-! ### One block -/

theorem decodeSymbols_withArgs (s o : State) (ks : List Nat) (p : Nat) :
    decodeSymbols (s.withArgs o) ks p = decodeSymbols s ks p := by
  induction ks generalizing p with
  | nil => rfl
  | cons k rest ih =>
    unfold decodeSymbols
    dsimp only
    rw [ih]
    rfl

@[simp] theorem State.withArgs_vBitPos (s o : State) : (s.withArgs o).vBitPos = s.vBitPos := rfl

theorem State.storeBytes_ignoresArgs (off : Nat) (bs : List Byte) : IgnoresArgs fun s => s.storeBytes off bs :=
  .ite (fun _ _ => .rfl) (fun _ _ => rfl) fun _ _ => rfl

/-- A block is unpacked whatever ARG0 to ARG3 hold: its destination is a value of its own (42_huffman.md R290). -/
theorem hdecodeBlock_ignoresArgs (dst : Nat) : IgnoresArgs (hdecodeBlock dst) := by
  refine .ite (fun _ _ => .rfl) (fun _ _ => rfl) <| .ite (fun _ _ => .rfl) (fun _ _ => rfl) <|
    .ite (fun _ _ => .rfl) (fun _ _ => rfl) <| .ite (fun _ _ => .rfl) (fun _ _ => rfl) fun s o => ?_
  simp only [State.withArgs_hazardAt, decodeSymbols_withArgs, State.withArgs_vBitPos,
    State.storeBytes_ignoresArgs dst _ s o]
  split
  · rfl
  · split
    · rfl
    · rename_i syms p _
      cases s.storeBytes dst (packNibbles syms) <;> rfl

/-- `s` with the bytes and the bit position a block leaves. -/
def State.withBlock (s : State) (m : List Host.Cell) (p : Word) : State := { s with storage := m, vBitPos := p }

/-- A block faults with nothing changed, or leaves its bytes and its end's bit position (42_huffman.md R290). -/
theorem hdecodeBlock_cases (dst : Nat) (s : State) :
    (∃ x, hdecodeBlock dst s = .trap s x) ∨ ∃ m p, hdecodeBlock dst s = .done (s.withBlock m p) := by
  unfold hdecodeBlock
  iterate 4
    split
    · exact .inl ⟨_, rfl⟩
  split
  · exact .inl ⟨_, rfl⟩
  · split
    · exact .inl ⟨_, rfl⟩
    · rcases s.storeBytes_cases dst (packNibbles _) with ⟨-, hstore⟩ | ⟨-, hstore⟩
      · exact .inr ⟨_, _, congrArg (Exit.andThen · _) hstore⟩
      · exact .inl ⟨_, congrArg (Exit.andThen · _) hstore⟩

section
variable {u : State} {dst : Word} {b : Nat} (hissue : u.sourceMayIssue) (hfit : dst.toNat + 9 * b < 2 ^ 32)
include hissue hfit

theorem exec_hdecode_atBlock :
    exec .hdecode (u.atBlock dst b) = ((hdecodeBlock (dst.toNat + 9 * b) u).withArgs (u.atBlock dst b)).close 0x31 := by
  have hdst : (u.atBlock dst b).arg0.toNat = dst.toNat + 9 * b := BitVec.toNat_ofNat .. ▸ Nat.mod_eq_of_lt hfit
  rw [exec_source (s := u.atBlock dst b) rfl hissue.1 hissue.2, bodyOf, hdecodeBody, unsignedArg, hdst]
  exact congrArg _ (hdecodeBlock_ignoresArgs _ u (u.atBlock dst b))

/-- An HDECODE that completes at a block's place says what the block leaves. -/
theorem hdecodeBlock_of_exec {u' : State} (harg : u.arg0 = dst) (harg' : u'.arg0 = dst) (hl' : u'.lifeState = .ready)
    (hexec : exec .hdecode (u.atBlock dst b) = .next (u'.atBlock dst b)) :
    hdecodeBlock (dst.toNat + 9 * b) u = .done u' ∧ ∃ m p, u' = u.withBlock m p := by
  rw [exec_hdecode_atBlock hissue hfit] at hexec
  rcases hdecodeBlock_cases (dst.toNat + 9 * b) u with ⟨x, htrap⟩ | ⟨m, p, hdone⟩
  · rw [htrap] at hexec
    have hfault := congrArg State.lifeState (Host.Outcome.next.inj hexec)
    exact absurd (hfault.trans hl') nofun
  · rw [hdone] at hexec
    have hargs := congrArg (fun t : State => { t with arg0 := dst }) (Host.Outcome.next.inj hexec)
    have hu' : u' = u.withBlock m p := by
      subst harg
      calc u' = { u' with arg0 := u.arg0 } := by rw [← harg']
        _ = u.withBlock m p := hargs.symm
    exact ⟨hu' ▸ hdone, m, p, hu'⟩

end

/-! ### The blocks of a VSTAGE -/

section
variable {s : State} {u : Nat → State} {blocks : Nat} (hissue : s.sourceMayIssue) (hstart : u 0 = s)
include hissue hstart

/-- The blocks that HDECODE unpacks one after another are the first blocks of the VSTAGE (41_vadpcm.md R245). -/
theorem stageBlocks_of_exec (hfit : s.arg0.toNat + 9 * blocks < 2 ^ 32)
    (hblocks : ∀ b < blocks, exec .hdecode ((u b).atBlock s.arg0 b) = .next ((u (b + 1)).atBlock s.arg0 b)
      ∧ (u (b + 1)).arg0 = s.arg0 ∧ (u (b + 1)).lifeState = .ready) (more : Nat) :
    stageBlocks s.arg0.toNat (blocks + more) 0 s = stageBlocks s.arg0.toNat more blocks (u blocks)
      ∧ ∃ m p, u blocks = s.withBlock m p := by
  induction blocks generalizing more with
  | zero => exact ⟨by rw [hstart, Nat.zero_add], s.storage, s.vBitPos, hstart⟩
  | succ n ih =>
    obtain ⟨hstaged, m, p, hun⟩ := ih (by omega) (fun b hb => hblocks b (by omega)) (more + 1)
    obtain ⟨hexec, harg, hl⟩ := hblocks n n.lt_succ_self
    obtain ⟨hblock, m', p', hun'⟩ := hdecodeBlock_of_exec (u := u n) (by rw [hun]; exact hissue) (by omega)
      (by rw [hun]; rfl) harg hl hexec
    refine ⟨?_, m', p', by rw [hun', hun]; rfl⟩
    rw [Nat.add_right_comm, Nat.add_assoc, hstaged, stageBlocks, hblock, Exit.andThen_done]

end

/-- Settles O47, by induction on the blocks: HDECODE at a block's place does the block's work. -/
theorem vstageUnpacksEntropyFrames : Obligations.VstageUnpacksEntropyFrames := by
  intro s blocks u hissue hinv hpass hentropy hstart hblocks
  have hbounds := State.windowBounds_of_ready hinv hissue.1
  obtain ⟨hin, hsize⟩ := State.staged_inside_of_vstageChecks hpass hbounds
  rw [exec_vstage hissue, vstageBody_passes hpass, if_pos hentropy]
  have hbytes : 9 * (s.arg1.toInt.toNat * s.vChannels.toNat) = s.stagedBytes := by
    rw [State.stagedBytes]
    ring
  refine ⟨fun hall hcursor => ?_, fun v hfew hexec hfault => ?_⟩
  · subst hall
    obtain ⟨hstaged, m, p, hend⟩ := stageBlocks_of_exec hissue hstart (by omega) hblocks 0
    rw [Nat.add_zero] at hstaged
    rw [hstaged, stageBlocks, hend]
    exact congrArg _ (State.advanceStaged_eq (t := s.withBlock m p) (State.frames_nonneg_of_vstageChecks hpass) hcursor)
  · obtain ⟨more, hmore⟩ := Nat.exists_eq_add_of_lt hfew
    obtain ⟨hstaged, m, p, hend⟩ := stageBlocks_of_exec hissue hstart (by omega) hblocks (more + 1)
    rw [hmore, Nat.add_assoc, hstaged, stageBlocks]
    rw [exec_hdecode_atBlock (by rw [hend]; exact hissue) (by omega)] at hexec
    rcases hdecodeBlock_cases (s.arg0.toNat + 9 * blocks) (u blocks) with ⟨x, htrap⟩ | ⟨m', p', hdone⟩
    · rw [htrap] at hexec ⊢
      cases hexec
      rw [hend]
      rfl
    · rw [hdone, hend] at hexec
      cases hexec
      exact absurd (hissue.1.symm.trans hfault) nofun

end Sys2Proof.Machine
end

section
/-! PROOF. VJOB at issue (41_vadpcm.md R252): its checks, the capture of its input, and the room it waits for. -/

namespace Sys2Proof.Machine

/-- VJOB past its checks: the job it issues, or the two faults of its input (41_vadpcm.md R252). -/
def State.vjobIssue (s : State) (nout nin : Nat) : Exit :=
  match s.hazardAt s.arg2.toNat (s.arg2.toNat + nin) with
  | some lo => .trap s ⟨.hazard, s.arg2.toNat, lo⟩
  | none => match Memory.readBytes s.storage s.arg2.toNat nin with
    | none => .trap s ⟨.unwritten, s.arg2.toNat, nin⟩
    | some input =>
      let j : Job := ⟨.vjob, s.arg0.toNat, s.arg0.toNat + nout, s.arg0.toNat, s.arg1.toInt.toNat, input⟩
      s.holdUntil s.queueHasRoom (.vjob j) (vjobFinish j)

theorem vjobBody_checked {s : State} {nout nin : Nat} (hnout : nout = s.arg1.toInt.toNat * 16 * s.vChannels.toNat * 2)
    (hnin : nin = s.arg1.toInt.toNat * 9 * s.vChannels.toNat) :
    CheckedBy (.trap s) (s.vjobIssue nout nin) (s.vjobChecks nout nin) (vjobBody s) := by
  subst hnout hnin
  exact .cons .rfl <| .cons .rfl <| .cons .rfl <| .cons .rfl .nil

/-- Settles O35: past the checks, the job by the hazard check, the captured bytes and the room. -/
theorem vjobCapturesItsInputAtIssue : Obligations.VjobCapturesItsInputAtIssue := by
  intro s nout nin ⟨hl, hread⟩ hnout hnin
  obtain ⟨hfails, hissue⟩ := vjobBody_checked hnout hnin
  have hexec : exec .vjob s = (vjobBody s).close 0x23 := exec_source rfl hl hread
  refine ⟨fun x hx => hexec.trans (congrArg _ (hfails x hx)), fun hpass => ?_⟩
  rw [hexec, hissue hpass, State.vjobIssue]
  refine ⟨fun hhazard => ?_, fun hfree => ?_⟩
  · obtain ⟨j, hj, hover, hat⟩ := State.exists_hazard hhazard
    exact ⟨j, hj, hover, by rw [hat]; rfl⟩
  rw [(s.hazardAt_eq_none_iff_noHazard _ _).mpr hfree]
  refine ⟨fun hhole => ?_, fun input hlen hbytes => ?_⟩
  · rw [(Memory.readBytes_eq_none ..).mpr hhole]
    rfl
  · rw [(Memory.readBytes_eq_some ..).mpr ⟨hlen, hbytes⟩]
    refine ⟨fun hroom => ?_, fun hfull => ?_⟩
    · rw [State.queueHasRoom, decide_eq_true hroom]
      rfl
    · rw [State.queueHasRoom, decide_eq_false (Nat.not_lt.mpr hfull)]
      rfl

end Sys2Proof.Machine
end

section
/-! PROOF. The decoding of a job (41_vadpcm.md R250, R252): its frames by their places in the captured input, and the
first bad control byte. -/

namespace Sys2Proof.Machine

/-! ### The frames of a job's input -/

/-- Block i of a job's input: its nine bytes (41_vadpcm.md R252). -/
def frameAt (input : List Byte) (i : Nat) : List Byte := (input.drop (i * 9)).take 9

theorem frameAt_drop (input : List Byte) (n i : Nat) : frameAt (input.drop (9 * n)) i = frameAt input (n + i) := by
  rw [frameAt, frameAt, List.drop_drop, Nat.add_mul, Nat.mul_comm 9]

theorem frameAt_take {n i : Nat} (hi : i < n) (input : List Byte) :
    frameAt (input.take (9 * n)) i = frameAt input i := by
  rw [frameAt, frameAt, List.drop_take, List.take_take, Nat.min_eq_left (by omega)]

theorem frameAt_length {input : List Byte} {n i : Nat} (hlen : input.length = n * 9) (hi : i < n) :
    (frameAt input i).length = 9 := by
  rw [frameAt, List.length_take, List.length_drop]
  omega

theorem jobFrame_eq_frameAt (s : State) (j : Job) (f c : Nat) :
    jobFrame s j f c = frameAt j.input (f * s.vChannels.toNat + c) := rfl

/-- Every block of n frames is one of a frame and a channel. -/
theorem exists_jobFrame_eq_frameAt {s : State} (j : Job) {n i : Nat} (hi : i < n * s.vChannels.toNat) :
    ∃ f < n, ∃ c < s.vChannels.toNat, f * s.vChannels.toNat + c = i ∧ jobFrame s j f c = frameAt j.input i := by
  have hplace := Nat.div_add_mod' i s.vChannels.toNat
  exact ⟨_, Nat.div_lt_of_lt_mul (Nat.mul_comm .. ▸ hi), _, Nat.mod_lt i (Nat.pos_of_lt_mul_left hi), hplace,
    by rw [jobFrame_eq_frameAt, hplace]⟩

theorem channelHistories_length (channels : Nat) (hist : List (List Half)) :
    (channelHistories channels hist).length = channels := by
  rw [channelHistories, List.length_map, List.length_range]

/-! ### One channel, and one frame, after another -/

theorem decodeChannels_cons (P : Predictor) (s : State) (hist : List Half) (rest : List (List Half))
    (input : List Byte) :
    decodeChannels P s (hist :: rest) input = (decodeFrame P s hist (frameAt input 0)).bind fun (xs, hist') =>
      (decodeChannels P s rest (input.drop (9 * 1))).map fun (xss, hists') => (xs :: xss, hist' :: hists') := by
  have hzero : frameAt input 0 = input.take 9 := rfl
  rw [decodeChannels, hzero]
  cases decodeFrame P s hist (input.take 9) with
  | error t => rfl
  | ok r => cases decodeChannels P s rest (input.drop 9) <;> simp [Except.bind, Except.map]

theorem decodeFrames_succ (P : Predictor) (s : State) (n : Nat) (hist : List (List Half)) (input : List Byte) :
    decodeFrames P s (n + 1) hist input =
      (decodeChannels P s (channelHistories s.vChannels.toNat hist) (input.take (9 * s.vChannels.toNat))).bind
        fun (xss, hist') => (decodeFrames P s n hist' (input.drop (9 * s.vChannels.toNat))).map
          fun (hist'', out) => (hist'', interleave xss ++ out) := by
  rw [decodeFrames]
  cases decodeChannels P s (channelHistories s.vChannels.toNat hist) (input.take (9 * s.vChannels.toNat)) with
  | error t => rfl
  | ok r =>
    cases hrest : decodeFrames P s n r.2 (input.drop (9 * s.vChannels.toNat)) <;>
      simp [hrest, Except.bind, Except.map]

/-! ### The first bad control byte -/

/-- The fault of a frame whose control byte selects a predictor that is not there (41_vadpcm.md R250). -/
def State.badPredictor (s : State) (frame : List Byte) : Trap :=
  ⟨.badPredictor, framePredictor frame, s.vPcount.toNat⟩

/-- The rows of a predictor that is there end inside the codebook (41_vadpcm.md R235). -/
theorem State.codebookRows_le (s : State) {p : Nat} (hp : p < s.vPcount.toNat) :
    p * s.vOrder.toNat * 16 + s.vOrder.toNat * 16 ≤ s.vPcount.toNat * s.vOrder.toNat * 16 := by
  have hrow : (p + 1) * (s.vOrder.toNat * 16) ≤ s.vPcount.toNat * (s.vOrder.toNat * 16) := Nat.mul_le_mul_right _ hp
  linarith

section
variable {P : Predictor} {s : State} (hbook : s.vPcount.toNat * s.vOrder.toNat * 16 ≤ s.header.length)
include hbook

theorem State.codebookRows_inside {p : Nat} (hp : p < s.vPcount.toNat) :
    s.codebookRows p = .ok ((groupsOf 8 s.vOrder.toNat (halvesOf ((s.header.drop (p * s.vOrder.toNat * 16)).take
      (s.vOrder.toNat * 16)))).map (List.map BitVec.toInt)) := by
  rw [State.codebookRows, State.readHeader_inside ((s.codebookRows_le hp).trans hbook)]

theorem decodeFrame_inRange {frame : List Byte} (hp : framePredictor frame < s.vPcount.toNat) (hist : List Half) :
    ∃ r, decodeFrame P s hist frame = .ok r :=
  ⟨_, by rw [decodeFrame, if_neg (Nat.not_le.mpr hp), State.codebookRows_inside hbook hp]⟩

theorem decodeChannels_inRange {hists : List (List Half)} {input : List Byte}
    (hgood : ∀ c < hists.length, framePredictor (frameAt input c) < s.vPcount.toNat) :
    ∃ r, decodeChannels P s hists input = .ok r := by
  induction hists generalizing input with
  | nil => exact ⟨_, rfl⟩
  | cons hist rest ih =>
    obtain ⟨r, hhead⟩ := decodeFrame_inRange (P := P) hbook (hgood 0 (Nat.succ_pos _)) hist
    obtain ⟨q, hrest⟩ := ih (input := input.drop (9 * 1)) fun c hc => by
      rw [frameAt_drop, Nat.add_comm]
      exact hgood (c + 1) (Nat.succ_lt_succ hc)
    exact ⟨_, by rw [decodeChannels_cons, hhead, hrest]; rfl⟩

theorem decodeChannels_bad {hists : List (List Half)} {input : List Byte} {c : Nat} (hc : c < hists.length)
    (hbad : s.vPcount.toNat ≤ framePredictor (frameAt input c))
    (hgood : ∀ c' < c, framePredictor (frameAt input c') < s.vPcount.toNat) :
    decodeChannels P s hists input = .error (s.badPredictor (frameAt input c)) := by
  induction hists generalizing input c with
  | nil => cases hc
  | cons hist rest ih =>
    rw [decodeChannels_cons]
    cases c with
    | zero =>
      rw [decodeFrame, if_pos hbad]
      rfl
    | succ c =>
      obtain ⟨r, hhead⟩ := decodeFrame_inRange (P := P) hbook (hgood 0 (Nat.succ_pos _)) hist
      have hrest := ih (input := input.drop (9 * 1)) (Nat.lt_of_succ_lt_succ hc)
      simp only [frameAt_drop, Nat.add_comm 1] at hrest
      rw [hhead, hrest hbad fun c' hc' => hgood (c' + 1) (Nat.succ_lt_succ hc')]
      rfl

/-- Frames are decoded in order, so the first bad control byte decides (41_vadpcm.md R252). -/
theorem decodeFrames_bad {n f c : Nat} {hist : List (List Half)} {input : List Byte} (hf : f < n)
    (hc : c < s.vChannels.toNat)
    (hbad : s.vPcount.toNat ≤ framePredictor (frameAt input (f * s.vChannels.toNat + c)))
    (hgood : ∀ i < f * s.vChannels.toNat + c, framePredictor (frameAt input i) < s.vPcount.toNat) :
    decodeFrames P s n hist input = .error (s.badPredictor (frameAt input (f * s.vChannels.toNat + c))) := by
  have hlen := channelHistories_length s.vChannels.toNat
  induction f generalizing n hist input with
  | zero =>
    obtain ⟨n, rfl⟩ := Nat.exists_eq_add_one.mpr hf
    rw [Nat.zero_mul, Nat.zero_add] at hbad hgood ⊢
    rw [← frameAt_take hc] at hbad ⊢
    rw [decodeFrames_succ, decodeChannels_bad hbook (by rwa [hlen]) hbad fun c' hc' => ?_]
    · rfl
    · rw [frameAt_take (hc'.trans hc)]
      exact hgood c' hc'
  | succ f ih =>
    obtain ⟨n, rfl⟩ := Nat.exists_eq_add_one.mpr (Nat.zero_lt_of_lt hf)
    obtain ⟨r, hfirst⟩ := decodeChannels_inRange (P := P) hbook
      (hists := channelHistories s.vChannels.toNat hist) (input := input.take (9 * s.vChannels.toNat)) fun c' hc' => by
        rw [hlen] at hc'
        rw [frameAt_take hc']
        exact hgood c' (by rw [Nat.succ_mul]; omega)
    rw [decodeFrames_succ, hfirst]
    have hplace : (f + 1) * s.vChannels.toNat + c = s.vChannels.toNat + (f * s.vChannels.toNat + c) := by ring
    rw [hplace] at hbad hgood ⊢
    rw [← frameAt_drop] at hbad ⊢
    have hrest := ih (n := n) (hist := r.2) (by omega) hbad fun i hi => by
      rw [frameAt_drop]
      exact hgood _ (by omega)
    simp only [Except.bind, hrest, Except.map]

end

/-- Settles O38: nothing of the job is committed before its last frame is decoded. -/
theorem badPredictorUndoesTheWholeJob : Obligations.BadPredictorUndoesTheWholeJob := by
  intro s j rest f c hl hqueue hbook hf hc hbad hgood
  have hdecode := decodeFrames_bad (P := ownPredictor) (hist := s.history) hbook hf hc hbad fun i hi => by
    obtain ⟨f', -, c', hc', hplace, hframe⟩ := exists_jobFrame_eq_frameAt (s := s) (n := f + 1) j (i := i)
      (by rw [Nat.succ_mul]; omega)
    rw [← hframe]
    exact hgood f' c' hc' (hplace ▸ hi)
  rw [engineStep_of_job hl hqueue, retireJob, if_neg (Nat.ne_zero_of_lt hf), hdecode]
  rfl

end Sys2Proof.Machine
end

section
/-! PROOF. A job over an all-zero codebook (41_vadpcm.md R250, R252, R256): the samples it decodes, the bytes it writes
and the history it leaves. -/

namespace Sys2Proof.Machine

/-! ### The samples of one frame -/

/-- The samples of a frame under a zero codebook: its clamped scaled residuals (41_vadpcm.md R256 item 3). -/
def residualSamples (frame : List Byte) : List Half := (frameResiduals frame).map fun r => BitVec.ofInt 16 (clamp16 r)

theorem clamp16_toInt (v : Int) : (BitVec.ofInt 16 (clamp16 v)).toInt = clamp16 v := by
  rw [BitVec.toInt_ofInt]
  unfold clamp16
  exact Int.bmod_eq_of_le (by omega) (by omega)

theorem nibblesOf_length (bytes : List Byte) : (nibblesOf bytes).length = 2 * bytes.length := by
  induction bytes with
  | nil => rfl
  | cons b rest ih =>
    simp only [nibblesOf, List.length_cons, ih]
    omega

/-- Nibble k is the high or the low one of byte k / 2 (41_vadpcm.md R250). -/
theorem getElem?_nibblesOf (bytes : List Byte) (k : Nat) :
    (nibblesOf bytes)[k]? = bytes[k / 2]?.map (if k % 2 = 0 then highNibble else lowNibble) := by
  induction bytes generalizing k with
  | nil => rfl
  | cons b rest ih =>
    match k with
    | 0 => rfl
    | 1 => rfl
    | k + 2 =>
      rw [Nat.add_div_right _ (by decide), Nat.add_mod_right, List.getElem?_cons_succ, ← ih]
      rfl

section
variable {frame : List Byte} (hframe : frame.length = 9)
include hframe

theorem residualSamples_length : (residualSamples frame).length = 16 := by
  simp [residualSamples, frameResiduals, nibblesOf_length, hframe]

/-- Sample k is the clamped scaled residual k (41_vadpcm.md R250). -/
theorem getElem?_residualSamples {k : Nat} (hk : k < 16) :
    (residualSamples frame)[k]? = some (BitVec.ofInt 16 (clamp16 (residualOf frame k * 2 ^ frameScale frame))) := by
  have hbyte : ((frame.drop 1).take 8)[k / 2]? = some (frame.getD (1 + k / 2) 0) := by
    rw [List.getElem?_take_of_lt (by omega), List.getElem?_drop, List.getD_eq_getElem?_getD,
      List.getElem?_eq_getElem (by omega)]
    rfl
  rw [residualSamples, frameResiduals, List.getElem?_map, List.getElem?_map, getElem?_nibblesOf, hbyte]
  simp only [residualOf, Option.map_some]
  split <;> rfl

/-- The history a frame leaves is its last samples, oldest first (41_vadpcm.md R250, R252). -/
theorem nextHistory_residualSamples {order : Nat} (horder : order ≤ 16) :
    (nextHistory order (residualSamples frame)).length = order
      ∧ ∀ i < order, (nextHistory order (residualSamples frame))[i]?
          = some (BitVec.ofInt 16 (clamp16 (residualOf frame (16 - order + i) * 2 ^ frameScale frame))) := by
  refine ⟨?_, fun i hi => ?_⟩
  · rw [nextHistory, List.length_take, List.length_drop, residualSamples_length hframe]
    omega
  · rw [nextHistory, List.getElem?_take_of_lt hi, List.getElem?_drop, getElem?_residualSamples hframe (by omega)]

end

/-! ### The interleaved bytes -/

/-- Entry i * m + r of a list of pieces of one length is entry r of piece i. -/
theorem getElem?_flatMap_of_length {α β : Type} {g : α → List β} {m : Nat} {l : List α}
    (hg : ∀ x ∈ l, (g x).length = m) {r : Nat} (hr : r < m) (i : Nat) :
    (l.flatMap g)[i * m + r]? = l[i]?.bind fun x => (g x)[r]? := by
  induction l generalizing i with
  | nil => rfl
  | cons x rest ih =>
    have hx := hg x List.mem_cons_self
    have hrest := ih fun y hy => hg y (List.mem_cons_of_mem _ hy)
    cases i with
    | zero => rw [List.flatMap_cons, Nat.zero_mul, Nat.zero_add, List.getElem?_append_left (by omega)]; rfl
    | succ i =>
      rw [List.flatMap_cons, List.getElem?_append_right (by rw [Nat.succ_mul]; omega), hx, Nat.succ_mul,
        show i * m + m + r - m = i * m + r by omega, hrest]
      rfl

/-- Sample k of channel c has its place among the interleaved bytes of a frame (41_vadpcm.md R252). -/
theorem getElem?_interleave {xss : List (List Half)} {k c b : Nat} (hk : k < 16) (hc : c < xss.length) (hb : b < 2) :
    (interleave xss)[(k * xss.length + c) * 2 + b]? = (halfBytes (xss[c].getD k 0))[b]? := by
  have hlen (k : Nat) : (xss.flatMap fun xs => halfBytes (xs.getD k 0)).length = xss.length * 2 := by
    simp [halfBytes]
  have hplace : (k * xss.length + c) * 2 + b = k * (xss.length * 2) + (c * 2 + b) := by ring
  rw [interleave, hplace, getElem?_flatMap_of_length (fun k _ => hlen k) (by omega), List.getElem?_range hk]
  rw [Option.bind_some, getElem?_flatMap_of_length (m := 2) (fun _ _ => rfl) hb,
    List.getElem?_eq_getElem hc]
  rfl

/-! ### A job over a zero codebook -/

/-- The samples of the channels of frame f (41_vadpcm.md R252). -/
def residualFrame (channels : Nat) (input : List Byte) (f : Nat) : List (List Half) :=
  (List.range channels).map fun c => residualSamples (frameAt input (f * channels + c))

theorem residualFrame_length (channels : Nat) (input : List Byte) (f : Nat) :
    (residualFrame channels input f).length = channels := by
  rw [residualFrame, List.length_map, List.length_range]

theorem residualFrame_drop (channels : Nat) (input : List Byte) (f : Nat) :
    residualFrame channels (input.drop (9 * channels)) f = residualFrame channels input (f + 1) := by
  have hplace (c : Nat) : channels + (f * channels + c) = (f + 1) * channels + c := by ring
  simp only [residualFrame, frameAt_drop, hplace]

theorem residualFrame_take (channels : Nat) (input : List Byte) :
    residualFrame channels (input.take (9 * channels)) 0 = residualFrame channels input 0 := by
  refine List.map_congr_left fun c hc => ?_
  rw [frameAt_take (by simpa using hc)]

theorem residualFrame_cons (channels : Nat) (input : List Byte) :
    residualFrame (channels + 1) input 0
      = residualSamples (frameAt input 0) :: residualFrame channels (input.drop (9 * 1)) 0 := by
  simp only [residualFrame, frameAt_drop, List.range_succ_eq_map, List.map_cons, List.map_map, Nat.zero_mul,
    Nat.zero_add, Nat.add_comm 1]
  rfl

/-- The bytes a job of n frames writes under a zero codebook (41_vadpcm.md R252). -/
def residualOutput (channels : Nat) (input : List Byte) (n : Nat) : List Byte :=
  (List.range n).flatMap fun f => interleave (residualFrame channels input f)

theorem residualOutput_length (channels : Nat) (input : List Byte) (n : Nat) :
    (residualOutput channels input n).length = n * (32 * channels) := by
  simp [residualOutput, interleave_length, residualFrame_length]

theorem residualOutput_succ (channels : Nat) (input : List Byte) (n : Nat) :
    residualOutput channels input (n + 1) = interleave (residualFrame channels input 0)
      ++ residualOutput channels (input.drop (9 * channels)) n := by
  simp only [residualOutput, residualFrame_drop, List.range_succ_eq_map (n := n), List.flatMap_cons, List.flatMap_map]

/-- Byte b of sample k of channel c in frame f (41_vadpcm.md R252, 20_memory.md R87). -/
theorem getElem?_residualOutput {channels n f c k b : Nat} (input : List Byte) (hf : f < n) (hc : c < channels)
    (hk : k < 16) (hb : b < 2) :
    (residualOutput channels input n)[((f * 16 + k) * channels + c) * 2 + b]?
      = (halfBytes ((residualSamples (frameAt input (f * channels + c))).getD k 0))[b]? := by
  have hlen := residualFrame_length channels input
  have hframe (f : Nat) : (interleave (residualFrame channels input f)).length = 32 * channels := by
    rw [interleave_length, hlen]
  have hplace : ((f * 16 + k) * channels + c) * 2 + b = f * (32 * channels) + ((k * channels + c) * 2 + b) := by ring
  have hin : (k * channels + c) * 2 + b < 32 * channels := by nlinarith
  have hsample := getElem?_interleave (xss := residualFrame channels input f) (c := c) hk (by rwa [hlen]) hb
  rw [residualOutput, hplace, getElem?_flatMap_of_length (fun f _ => hframe f) hin, List.getElem?_range hf,
    Option.bind_some]
  simpa only [hlen, residualFrame, List.length_map, List.length_range, List.getElem_map, List.getElem_range]
    using hsample

theorem eq_zero_of_mem_halvesOf {bytes : List Byte} (hzero : ∀ b ∈ bytes, b = 0) :
    ∀ x ∈ halvesOf bytes, x = 0 := by
  fun_induction halvesOf bytes with
  | case1 hi lo rest ih =>
    simp only [List.forall_mem_cons] at hzero ⊢
    obtain ⟨rfl, rfl, hrest⟩ := hzero
    exact ⟨rfl, ih hrest⟩
  | case2 => nofun

theorem mem_of_mem_groupsOf {α : Type} {n k : Nat} {l row : List α} (hrow : row ∈ groupsOf n k l) {x : α}
    (hx : x ∈ row) : x ∈ l := by
  obtain ⟨j, -, rfl⟩ := List.mem_map.mp hrow
  exact List.mem_of_mem_drop (List.mem_of_mem_take hx)

section
variable {P : Predictor} {s : State} (hbook : s.vPcount.toNat * s.vOrder.toNat * 16 ≤ s.header.length)
  (hzero : ∀ b ∈ s.header.take (s.vPcount.toNat * s.vOrder.toNat * 16), b = 0)
include hbook hzero

/-- The rows of an all-zero codebook are zero (41_vadpcm.md R235). -/
theorem State.codebookRows_zero {p : Nat} (hp : p < s.vPcount.toNat) :
    ∃ coef, s.codebookRows p = .ok coef ∧ ∀ row ∈ coef, ∀ v ∈ row, v = 0 := by
  refine ⟨_, State.codebookRows_inside hbook hp, fun row hrow v hv => ?_⟩
  obtain ⟨halves, hhalves, rfl⟩ := List.mem_map.mp hrow
  obtain ⟨x, hx, rfl⟩ := List.mem_map.mp hv
  have hin := s.codebookRows_le hp
  have hbytes : ∀ b ∈ (s.header.drop (p * s.vOrder.toNat * 16)).take (s.vOrder.toNat * 16), b = 0 := fun b hb => by
    rw [← Nat.min_eq_left (Nat.le_sub_of_add_le' hin), ← List.take_take, ← List.drop_take] at hb
    exact hzero b (List.mem_of_mem_drop (List.mem_of_mem_take hb))
  rw [eq_zero_of_mem_halvesOf hbytes x (mem_of_mem_groupsOf hhalves hx)]
  rfl

theorem decodeFrame_zero_codebook {frame : List Byte} (hp : framePredictor frame < s.vPcount.toNat)
    (hist : List Half) :
    decodeFrame P s hist frame = .ok (residualSamples frame, nextHistory s.vOrder.toNat (residualSamples frame)) := by
  obtain ⟨coef, hrows, hcoef⟩ := State.codebookRows_zero hbook hzero hp
  have hsamples : frameSamples P coef s.vOrder.toNat hist frame = residualSamples frame := by
    rw [frameSamples, predict_zero_codebook P hcoef, List.map_map]
    rfl
  rw [decodeFrame, if_neg (Nat.not_le.mpr hp), hrows]
  simp only [hsamples]

theorem decodeChannels_zero_codebook {hists : List (List Half)} {input : List Byte}
    (hgood : ∀ c < hists.length, framePredictor (frameAt input c) < s.vPcount.toNat) :
    decodeChannels P s hists input = .ok (residualFrame hists.length input 0,
      (residualFrame hists.length input 0).map (nextHistory s.vOrder.toNat)) := by
  induction hists generalizing input with
  | nil => rfl
  | cons hist rest ih =>
    have hrest := ih (input := input.drop (9 * 1)) fun c hc => by
      rw [frameAt_drop, Nat.add_comm]
      exact hgood (c + 1) (Nat.succ_lt_succ hc)
    rw [decodeChannels_cons, decodeFrame_zero_codebook hbook hzero (hgood 0 (Nat.succ_pos _)), hrest, List.length_cons,
      residualFrame_cons]
    rfl

theorem decodeFrames_succ_zero_codebook (n : Nat) (hist : List (List Half)) {input : List Byte}
    (hgood : ∀ c < s.vChannels.toNat, framePredictor (frameAt input c) < s.vPcount.toNat) :
    decodeFrames P s (n + 1) hist input
      = (decodeFrames P s n ((residualFrame s.vChannels.toNat input 0).map (nextHistory s.vOrder.toNat))
          (input.drop (9 * s.vChannels.toNat))).map
        fun (hist', out) => (hist', interleave (residualFrame s.vChannels.toNat input 0) ++ out) := by
  have hlen := channelHistories_length s.vChannels.toNat hist
  have hfirst := decodeChannels_zero_codebook (P := P) hbook hzero
    (hists := channelHistories s.vChannels.toNat hist) (input := input.take (9 * s.vChannels.toNat)) fun c hc => by
      rw [frameAt_take (hlen ▸ hc)]
      exact hgood c (hlen ▸ hc)
  rw [hlen, residualFrame_take] at hfirst
  rw [decodeFrames_succ, hfirst]
  rfl

/-- A job's frames under a zero codebook, from any history (41_vadpcm.md R252). -/
theorem decodeFrames_zero_codebook {n : Nat} {hist : List (List Half)} {input : List Byte}
    (hgood : ∀ i < (n + 1) * s.vChannels.toNat, framePredictor (frameAt input i) < s.vPcount.toNat) :
    decodeFrames P s (n + 1) hist input
      = .ok ((residualFrame s.vChannels.toNat input n).map (nextHistory s.vOrder.toNat),
          residualOutput s.vChannels.toNat input (n + 1)) := by
  induction n generalizing hist input with
  | zero =>
    rw [decodeFrames_succ_zero_codebook hbook hzero 0 hist fun c hc => hgood c (by omega)]
    rfl
  | succ n ih =>
    have hrest := ih (hist := (residualFrame s.vChannels.toNat input 0).map (nextHistory s.vOrder.toNat))
      (input := input.drop (9 * s.vChannels.toNat)) fun i hi => by
        rw [frameAt_drop]
        exact hgood _ (by rw [Nat.succ_mul]; omega)
    rw [decodeFrames_succ_zero_codebook hbook hzero (n + 1) hist fun c hc => hgood c (by rw [Nat.succ_mul]; omega),
      hrest, residualFrame_drop, residualOutput_succ _ _ (n + 1)]
    rfl

/-- The engine retires a job over a zero codebook (41_vadpcm.md R252, 20_memory.md R94). -/
theorem engineStep_zero_codebook {j : Job} {rest : List Job} {n : Nat} (hl : s.lifeState ≠ .faulted)
    (hqueue : s.queue = j :: rest) (hframes : j.frames = n + 1)
    (hdst : j.dst + j.frames * 32 * s.vChannels.toNat ≤ s.storageSize)
    (hgood : ∀ i < (n + 1) * s.vChannels.toNat, framePredictor (frameAt j.input i) < s.vPcount.toNat) :
    engineStep s = .next (s.retired rest
      (some ((residualFrame s.vChannels.toNat j.input n).map (nextHistory s.vOrder.toNat)))
      j.dst (residualOutput s.vChannels.toNat j.input (n + 1))) := by
  have hin : j.dst + (residualOutput s.vChannels.toNat j.input (n + 1)).length ≤ s.storageSize := by
    rw [residualOutput_length, ← hframes, ← Nat.mul_assoc]
    exact hdst
  rw [engineStep_of_job hl hqueue, retireJob, if_neg (by omega), hframes,
    decodeFrames_zero_codebook hbook hzero hgood]
  simp only [State.commitJob, State.storeBytes_inside (.inr hin)]
  rfl

end

theorem Memory.read_writeBytes_of_getElem? {bs : List Byte} {i : Nat} {b : Byte} (h : bs[i]? = some b)
    (m : List Host.Cell) (off : Nat) : Memory.read (Memory.writeBytes m off bs) (off + i) = some b := by
  obtain ⟨hi, -⟩ := List.getElem?_eq_some_iff.mp h
  rw [Memory.read_writeBytes, if_pos (by omega), Nat.add_sub_cancel_left, h]

/-- Settles O36: the engine's step writes the residuals' bytes, and each has its place among them. -/
theorem zeroCodebookJobWritesItsResiduals : Obligations.ZeroCodebookJobWritesItsResiduals := by
  intro s j rest moves hl hmove hqueue hframes _ horder hinput hdst hbook hzero hgood
  obtain ⟨n, hn⟩ := Nat.exists_eq_add_one.mpr hframes
  rw [hn] at hinput hgood ⊢
  have hlen {f c : Nat} (hf : f < n + 1) (hc : c < s.vChannels.toNat) : (jobFrame s j f c).length = 9 := by
    have hrow : (f + 1) * s.vChannels.toNat ≤ (n + 1) * s.vChannels.toNat := Nat.mul_le_mul_right _ hf
    rw [Nat.succ_mul f] at hrow
    exact frameAt_length (n := (n + 1) * s.vChannels.toNat) (by rw [hinput]; ring) (by omega)
  have hall (i : Nat) (hi : i < (n + 1) * s.vChannels.toNat) :
      framePredictor (frameAt j.input i) < s.vPcount.toNat := by
    obtain ⟨f, hf, c, hc, -, hframe⟩ := exists_jobFrame_eq_frameAt j hi
    exact hframe ▸ hgood f hf c hc
  refine ⟨Memory.writeBytes s.storage j.dst (residualOutput s.vChannels.toNat j.input (n + 1)),
    (residualFrame s.vChannels.toNat j.input n).map (nextHistory s.vOrder.toNat), ?_,
    fun f hf c hc k hk => ⟨_, clamp16_toInt _, ?_⟩, fun a ha => ?_, ?_, fun c hc => ?_⟩
  · rw [step_engine hmove]
    exact engineStep_zero_codebook (s := s.afterMove moves) hbook hzero hl hqueue hn hdst hall
  · have hbyte {b : Nat} (hb : b < 2) := getElem?_residualOutput j.input hf hc hk hb
    rw [List.getD_eq_getElem?_getD, ← jobFrame_eq_frameAt, getElem?_residualSamples (hlen hf hc) hk] at hbyte
    exact ⟨Memory.read_writeBytes_of_getElem? (hbyte Nat.zero_lt_two) _ _,
      Memory.read_writeBytes_of_getElem? (hbyte Nat.one_lt_two) _ _⟩
  · exact Memory.read_writeBytes_outside (by rw [residualOutput_length, Nat.mul_assoc]) ha _
  · rw [List.length_map, residualFrame_length]
  · have hrow : ((residualFrame s.vChannels.toNat j.input n).map (nextHistory s.vOrder.toNat)).getD c []
        = nextHistory s.vOrder.toNat (residualSamples (jobFrame s j n c)) := by
      simp [residualFrame, List.getD_eq_getElem?_getD, hc, jobFrame_eq_frameAt]
    obtain ⟨hrowLen, hsample⟩ := nextHistory_residualSamples (hlen n.lt_succ_self hc) (horder.trans (by decide))
    rw [hrow, Nat.add_sub_cancel]
    exact ⟨hrowLen, fun i hi => ⟨_, hsample i hi, clamp16_toInt _⟩⟩

end Sys2Proof.Machine
end

section
/-! PROOF. The build of one context (42_huffman.md R280, R282): what each symbol's code does to the table, and the first
malformed code. -/

namespace Sys2Proof.Machine

/-! ### Filling a range of entries -/

theorem any_ne_zero_slice_iff {t : List Byte} {lo hi : Nat} :
    ((t.drop lo).take (hi - lo)).any (· != 0) = true ↔ ∃ w, (lo ≤ w ∧ w < hi) ∧ t.getD w 0 ≠ 0 := by
  simp only [List.any_eq_true, bne_iff_ne, List.mem_iff_getElem?, List.getElem?_take, List.getElem?_drop,
    List.getD_eq_getElem?_getD]
  constructor
  · rintro ⟨b, ⟨i, hb⟩, hne⟩
    split at hb
    · exact ⟨lo + i, ⟨Nat.le_add_right .., by omega⟩, by rwa [hb]⟩
    · cases hb
  · rintro ⟨w, ⟨hlo, hhi⟩, hne⟩
    obtain ⟨b, hb⟩ : ∃ b, t[w]? = some b := Option.ne_none_iff_exists'.mp fun h => hne (by rw [h]; rfl)
    refine ⟨b, ⟨w - lo, ?_⟩, by simpa [hb] using hne⟩
    rw [if_pos (by omega), Nat.add_sub_cancel' hlo, hb]

/-- A range that holds a filled entry is refused; one that holds none is filled, and the other entries stay
(42_huffman.md R280). -/
theorem fillEntries_cases {t : List Byte} {lo hi : Nat} (hlo : lo ≤ hi) (hhi : hi ≤ t.length) (v : Byte) :
    ((∃ w, (lo ≤ w ∧ w < hi) ∧ t.getD w 0 ≠ 0) ∧ fillEntries t lo hi v = none)
    ∨ ((∀ w, lo ≤ w ∧ w < hi → t.getD w 0 = 0) ∧ ∃ t', fillEntries t lo hi v = some t' ∧ t'.length = t.length
        ∧ ∀ w, t'.getD w 0 = if lo ≤ w ∧ w < hi then v else t.getD w 0) := by
  by_cases hfilled : ∃ w, (lo ≤ w ∧ w < hi) ∧ t.getD w 0 ≠ 0
  · exact .inl ⟨hfilled, if_pos (any_ne_zero_slice_iff.mpr hfilled)⟩
  · refine .inr ⟨by simpa using hfilled, _, if_neg (mt any_ne_zero_slice_iff.mp hfilled), ?_, fun w => ?_⟩
    · simp only [List.length_append, List.length_take, List.length_replicate, List.length_drop]
      omega
    · simp only [List.getD_eq_getElem?_getD, List.getElem?_append, List.length_append, List.length_take,
        List.length_replicate, List.getElem?_take, List.getElem?_replicate, List.getElem?_drop]
      grind

/-! ### A code's windows -/

/-- The windows that a present code covers are those HBUILD fills for it (42_huffman.md R280). -/
theorem codeCovers_iff {ctx : List Byte} {sym w : Nat} :
    codeCovers ctx sym w ↔ codeLength ctx sym ≠ 0
      ∧ codeValue ctx sym * 2 ^ (8 - codeLength ctx sym) ≤ w
      ∧ w < (codeValue ctx sym + 1) * 2 ^ (8 - codeLength ctx sym) := by
  refine and_congr_right fun _ => ?_
  rw [← Nat.le_div_iff_mul_le (Nat.two_pow_pos _), ← Nat.div_lt_iff_lt_mul (Nat.two_pow_pos _)]
  omega

/-- The length of symbol sym is at most 8, and its code, where present, fits in it (42_huffman.md R282). -/
abbrev codeFits (ctx : List Byte) (sym : Nat) : Prop :=
  codeLength ctx sym ≤ 8 ∧ (codeLength ctx sym ≠ 0 → codeValue ctx sym < 2 ^ codeLength ctx sym)

/-- Some window has both symbol sym's code and an earlier one as prefixes (42_huffman.md R282). -/
abbrev overlapsEarlier (ctx : List Byte) (sym : Nat) : Prop :=
  ∃ b < sym, ∃ w < 256, codeCovers ctx sym w ∧ codeCovers ctx b w

theorem wellFormedBefore_succ_iff {ctx : List Byte} {n : Nat} :
    wellFormedBefore ctx (n + 1) ↔ wellFormedBefore ctx n ∧ codeFits ctx n ∧ ¬ overlapsEarlier ctx n := by
  have hapart : ¬ overlapsEarlier ctx n ↔ ∀ b < n, ∀ w < 256, ¬ (codeCovers ctx n w ∧ codeCovers ctx b w) := by
    simp only [overlapsEarlier, not_exists, not_and]
  rw [hapart]
  exact Nat.forall_lt_succ_right

/-- A code of `len` bits ends inside the 256 windows (42_huffman.md R280). -/
theorem windowsEnd_le {len code : Nat} (hlen : len ≤ 8) (hcode : code < 2 ^ len) :
    (code + 1) * 2 ^ (8 - len) ≤ 256 :=
  calc (code + 1) * 2 ^ (8 - len) ≤ 2 ^ len * 2 ^ (8 - len) := Nat.mul_le_mul_right _ hcode
    _ = 256 := by rw [← Nat.pow_add, Nat.add_sub_cancel' hlen]

theorem codeCovers.lt {ctx : List Byte} {sym w : Nat} (hfit : codeFits ctx sym) (h : codeCovers ctx sym w) :
    w < 256 := by
  obtain ⟨hne, -, hlt⟩ := codeCovers_iff.mp h
  exact hlt.trans_le (windowsEnd_le hfit.1 (hfit.2 hne))

/-! ### The table of the codes met so far -/

/-- The entry that holds symbol sym and its length (10_state.md R71). -/
def codeEntry (ctx : List Byte) (sym : Nat) : Byte := BitVec.ofNat 8 (sym * 16 + codeLength ctx sym)

/-- The low nibble of a filled entry is its code's length (10_state.md R71). -/
theorem lowNibble_entry (sym : Nat) {len : Nat} (hlen : len ≤ 8) :
    (lowNibble (BitVec.ofNat 8 (sym * 16 + len))).toNat = len := by
  rw [lowNibble, BitVec.extractLsb'_toNat, BitVec.toNat_ofNat]
  omega

theorem codeEntry_ne_zero {ctx : List Byte} {sym : Nat} (hne : codeLength ctx sym ≠ 0)
    (hle : codeLength ctx sym ≤ 8) : codeEntry ctx sym ≠ 0 := fun h =>
  hne ((lowNibble_entry sym hle).symm.trans (congrArg (fun b => (lowNibble b).toNat) h))

/-- `t` is the table of the first n symbols' codes: a window that one of them covers has its entry, and a window that
none covers is unfilled (42_huffman.md R280). -/
structure TableOfCodes (ctx : List Byte) (n : Nat) (t : List Byte) : Prop where
  length_eq : t.length = 256
  covered : ∀ w < 256, ∀ a < n, codeCovers ctx a w → t.getD w 0 = codeEntry ctx a
  uncovered : ∀ w < 256, (∀ a < n, ¬ codeCovers ctx a w) → t.getD w 0 = 0

theorem TableOfCodes.start (ctx : List Byte) : TableOfCodes ctx 0 (List.replicate 256 0) where
  length_eq := List.length_replicate
  covered := nofun
  uncovered := fun _ hw _ => List.getD_replicate _ hw

/-- A symbol without a code leaves the table as it is (42_huffman.md R280). -/
theorem TableOfCodes.absent {ctx t : List Byte} {n : Nat} (h : TableOfCodes ctx n t) (hzero : codeLength ctx n = 0) :
    TableOfCodes ctx (n + 1) t where
  length_eq := h.length_eq
  covered := fun w hw a ha hcov => h.covered w hw a (by
    have hne : a ≠ n := fun han => hcov.1 (han ▸ hzero)
    omega) hcov
  uncovered := fun w hw hnone => h.uncovered w hw fun a ha => hnone a (ha.trans n.lt_succ_self)

section
variable {ctx t : List Byte} {n : Nat} (h : TableOfCodes ctx n t)
include h

/-- An entry is filled exactly where a code covers it. -/
theorem TableOfCodes.ne_zero_iff (hwf : wellFormedBefore ctx n) {w : Nat} (hw : w < 256) :
    t.getD w 0 ≠ 0 ↔ ∃ a < n, codeCovers ctx a w := by
  constructor
  · intro hne
    by_contra hnone
    exact hne (h.uncovered w hw (by simpa using hnone))
  · rintro ⟨a, ha, hcov⟩
    rw [h.covered w hw a ha hcov]
    exact codeEntry_ne_zero hcov.1 (hwf a ha).1.1

/-- The code of symbol n is refused where it overlaps an earlier one, and else it gets its entries (42_huffman.md
R280, R282). -/
theorem TableOfCodes.fill (hwf : wellFormedBefore ctx n) (hfit : codeFits ctx n) (hne : codeLength ctx n ≠ 0) :
    (overlapsEarlier ctx n → fillEntries t (codeValue ctx n * 2 ^ (8 - codeLength ctx n))
      ((codeValue ctx n + 1) * 2 ^ (8 - codeLength ctx n)) (codeEntry ctx n) = none)
    ∧ (¬ overlapsEarlier ctx n → ∃ t', fillEntries t (codeValue ctx n * 2 ^ (8 - codeLength ctx n))
      ((codeValue ctx n + 1) * 2 ^ (8 - codeLength ctx n)) (codeEntry ctx n) = some t'
        ∧ TableOfCodes ctx (n + 1) t') := by
  have hcovers (w : Nat) := (codeCovers_iff (ctx := ctx) (sym := n) (w := w)).trans (and_iff_right hne)
  have hend := windowsEnd_le hfit.1 (hfit.2 hne)
  rcases fillEntries_cases (Nat.mul_le_mul_right _ (Nat.le_succ _)) (h.length_eq ▸ hend) (codeEntry ctx n) with
    ⟨⟨w, hin, hfilled⟩, hnone⟩ | ⟨hfree, t', hsome, hlen, hentries⟩
  · refine ⟨fun _ => hnone, fun hfree => absurd ?_ hfree⟩
    have hw : w < 256 := hin.2.trans_le hend
    obtain ⟨b, hb, hcov⟩ := (h.ne_zero_iff hwf hw).mp hfilled
    exact ⟨b, hb, w, hw, (hcovers w).mpr hin, hcov⟩
  · simp only [← hcovers] at hfree hentries
    refine ⟨fun ⟨b, hb, w, hw, hcov, hcovb⟩ => absurd (hfree w hcov) ((h.ne_zero_iff hwf hw).mpr ⟨b, hb, hcovb⟩),
      fun hapart => ⟨t', hsome, hlen.trans h.length_eq, fun w hw a ha hcov => ?_, fun w hw hnone => ?_⟩⟩
    · rw [hentries]
      rcases Nat.lt_succ_iff_lt_or_eq.mp ha with ha | rfl
      · rw [if_neg fun hcovn => hapart ⟨a, ha, w, hw, hcovn, hcov⟩, h.covered w hw a ha hcov]
      · rw [if_pos hcov]
    · rw [hentries, if_neg (hnone n n.lt_succ_self), h.uncovered w hw fun a ha => hnone a (ha.trans n.lt_succ_self)]

end

/-! ### One symbol -/

/-- Symbol sym's code is malformed of a kind, the first of the three checks that fails (42_huffman.md R280, R282). -/
def malformedCode (ctx : List Byte) (sym : Nat) (kind : Int) : Prop :=
  (8 < codeLength ctx sym ∧ kind = 0)
  ∨ (codeLength ctx sym ≤ 8 ∧ codeLength ctx sym ≠ 0 ∧ 2 ^ codeLength ctx sym ≤ codeValue ctx sym ∧ kind = 1)
  ∨ (codeFits ctx sym ∧ overlapsEarlier ctx sym ∧ kind = 2)

theorem exists_kind_of_malformed {ctx : List Byte} {sym : Nat} (h : ¬ (codeFits ctx sym ∧ ¬ overlapsEarlier ctx sym)) :
    ∃ kind, malformedCode ctx sym kind := by
  by_cases hlong : 8 < codeLength ctx sym
  · exact ⟨0, .inl ⟨hlong, rfl⟩⟩
  by_cases hwide : codeLength ctx sym ≠ 0 ∧ 2 ^ codeLength ctx sym ≤ codeValue ctx sym
  · exact ⟨1, .inr (.inl ⟨Nat.not_lt.mp hlong, hwide.1, hwide.2, rfl⟩)⟩
  · have hfit : codeFits ctx sym := ⟨Nat.not_lt.mp hlong, fun hne => Nat.not_le.mp fun hle => hwide ⟨hne, hle⟩⟩
    exact ⟨2, .inr (.inr ⟨hfit, not_not.mp fun hapart => h ⟨hfit, hapart⟩, rfl⟩)⟩

/-- Where not all codes are well formed, there is a first malformed one (42_huffman.md R282). -/
theorem exists_malformedCode {ctx : List Byte} {n : Nat} (h : ¬ wellFormedBefore ctx n) :
    ∃ sym < n, wellFormedBefore ctx sym ∧ ∃ kind, malformedCode ctx sym kind := by
  induction n with
  | zero => exact absurd nofun h
  | succ n ih =>
    by_cases hwf : wellFormedBefore ctx n
    · have hbad := exists_kind_of_malformed fun hgood => h (wellFormedBefore_succ_iff.mpr ⟨hwf, hgood⟩)
      exact ⟨n, n.lt_succ_self, hwf, hbad⟩
    · obtain ⟨sym, hsym, hbad⟩ := ih hwf
      exact ⟨sym, hsym.trans n.lt_succ_self, hbad⟩

theorem State.getD_contextBytes (s : State) (k : Nat) {i : Nat} (hi : i < 24) :
    ((s.header.drop (s.codebookEnd + 24 * k + i)).take 1).getD 0 0 = (s.contextBytes k).getD i 0 := by
  simp only [List.getD_eq_getElem?_getD, List.getElem?_take, List.getElem?_drop, hi, if_true, Nat.lt_one_iff,
    Nat.add_zero]

theorem range_eq_append_cons {i n : Nat} (h : i < n) : ∃ rest, List.range n = List.range i ++ i :: rest := by
  obtain ⟨m, rfl⟩ := Nat.exists_eq_add_of_lt h
  exact ⟨_, by rw [Nat.add_assoc, List.range_add, List.range_succ_eq_map, List.map_cons, Nat.add_zero]⟩

theorem buildSymbols_append (s : State) (k base : Nat) (l l' : List Nat) (t : List Byte) :
    buildSymbols s k base (l ++ l') t = (buildSymbols s k base l t).bind (buildSymbols s k base l') := by
  induction l generalizing t with
  | nil => rfl
  | cons sym rest ih =>
    rw [List.cons_append, buildSymbols, buildSymbols]
    cases buildSymbol s k base sym t with
    | error e => rfl
    | ok t' => exact ih t'

section
variable {s : State} {k : Nat} (hin : s.codebookEnd + 24 * k + 24 ≤ s.header.length)
include hin

theorem symbolLength_eq {sym : Nat} (hsym : sym < 16) :
    symbolLength s (s.codebookEnd + 24 * k) sym = .ok (codeLength (s.contextBytes k) sym) := by
  rw [symbolLength, State.readHeader_inside (by omega)]
  simp only [State.getD_contextBytes s k (show sym / 2 < 24 by omega)]

theorem symbolCode_eq {sym : Nat} (hsym : sym < 16) :
    symbolCode s (s.codebookEnd + 24 * k) sym = .ok (codeValue (s.contextBytes k) sym) := by
  rw [symbolCode, State.readHeader_inside (by omega)]
  simp only [Nat.add_assoc (s.codebookEnd + 24 * k) 8 sym, State.getD_contextBytes s k (show 8 + sym < 24 by omega)]

/-- HBUILD's work on one symbol, by the context's bytes (42_huffman.md R280). -/
theorem buildSymbol_eq {sym : Nat} (hsym : sym < 16) (t : List Byte) :
    buildSymbol s k (s.codebookEnd + 24 * k) sym t = if codeLength (s.contextBytes k) sym = 0 then .ok t
      else placeCode k sym (codeLength (s.contextBytes k) sym) (codeValue (s.contextBytes k) sym) t := by
  simp only [buildSymbol, symbolLength_eq hin hsym, symbolCode_eq hin hsym]

section
variable {t : List Byte} {sym : Nat} (hsym : sym < 16) (hwf : wellFormedBefore (s.contextBytes k) sym)
  (htab : TableOfCodes (s.contextBytes k) sym t)
include hsym hwf htab

/-- A malformed code faults with its kind (42_huffman.md R280, R282). -/
theorem buildSymbol_malformed {kind : Int} (hbad : malformedCode (s.contextBytes k) sym kind) :
    buildSymbol s k (s.codebookEnd + 24 * k) sym t = .error ⟨.huffMalformed, (256 * k + sym : Nat), kind⟩ := by
  rw [buildSymbol_eq hin hsym, Nat.mul_comm 256]
  rcases hbad with ⟨hlong, rfl⟩ | ⟨hle, hne, hwide, rfl⟩ | ⟨hfit, hover, rfl⟩
  · rw [if_neg (Nat.ne_zero_of_lt hlong), placeCode, if_pos hlong]
  · rw [if_neg hne, placeCode, if_neg (Nat.not_lt.mpr hle), if_pos hwide]
  · obtain ⟨-, -, -, -, ⟨hne, -⟩, -⟩ := id hover
    have hnone := (htab.fill hwf hfit hne).1 hover
    rw [codeEntry] at hnone
    rw [if_neg hne, placeCode, if_neg (Nat.not_lt.mpr hfit.1), if_neg (Nat.not_le.mpr (hfit.2 hne)), hnone]

/-- A well-formed code gets its entries (42_huffman.md R280). -/
theorem buildSymbol_wellFormed (hfit : codeFits (s.contextBytes k) sym)
    (hapart : ¬ overlapsEarlier (s.contextBytes k) sym) :
    ∃ t', buildSymbol s k (s.codebookEnd + 24 * k) sym t = .ok t' ∧ TableOfCodes (s.contextBytes k) (sym + 1) t' := by
  rw [buildSymbol_eq hin hsym]
  by_cases hzero : codeLength (s.contextBytes k) sym = 0
  · exact ⟨t, if_pos hzero, htab.absent hzero⟩
  · obtain ⟨t', hsome, htab'⟩ := (htab.fill hwf hfit hzero).2 hapart
    rw [codeEntry] at hsome
    refine ⟨t', ?_, htab'⟩
    rw [if_neg hzero, placeCode, if_neg (Nat.not_lt.mpr hfit.1), if_neg (Nat.not_le.mpr (hfit.2 hzero)), hsome]

end

/-! ### The symbols of a context, and its table -/

/-- Well-formed codes get their entries, one after another (42_huffman.md R280). -/
theorem buildSymbols_wellFormed {n : Nat} (hn : n ≤ 16) (hwf : wellFormedBefore (s.contextBytes k) n) :
    ∃ t, buildSymbols s k (s.codebookEnd + 24 * k) (List.range n) (List.replicate 256 0) = .ok t
      ∧ TableOfCodes (s.contextBytes k) n t := by
  induction n with
  | zero => exact ⟨_, rfl, .start _⟩
  | succ n ih =>
    obtain ⟨hwf, hfit, hapart⟩ := wellFormedBefore_succ_iff.mp hwf
    obtain ⟨t, hbuilt, htab⟩ := ih (Nat.le_of_succ_le hn) hwf
    obtain ⟨t', hsym, htab'⟩ := buildSymbol_wellFormed hin hn hwf htab hfit hapart
    refine ⟨t', ?_, htab'⟩
    rw [List.range_succ, buildSymbols_append, hbuilt]
    simp only [Except.bind, buildSymbols, hsym]

/-- The first malformed code of a context is its fault (42_huffman.md R280, R282). -/
theorem buildContext_malformed {sym : Nat} {kind : Int} (hsym : sym < 16)
    (hwf : wellFormedBefore (s.contextBytes k) sym) (hbad : malformedCode (s.contextBytes k) sym kind) :
    buildContext s k = .error ⟨.huffMalformed, (256 * k + sym : Nat), kind⟩ := by
  obtain ⟨t, hbuilt, htab⟩ := buildSymbols_wellFormed hin hsym.le hwf
  obtain ⟨rest, hrange⟩ := range_eq_append_cons hsym
  have hbuild : buildSymbols s k (s.codebookEnd + 24 * k) (List.range 16) (List.replicate 256 0)
      = .error ⟨.huffMalformed, (256 * k + sym : Nat), kind⟩ := by
    rw [hrange, buildSymbols_append, hbuilt]
    simp only [Except.bind, buildSymbols, buildSymbol_malformed hin hsym hwf htab hbad]
  rw [buildContext, hbuild]

/-- A context of well-formed codes builds where every window is covered, and else faults at the least that is not
(42_huffman.md R280). -/
theorem buildContext_cases (hwf : wellFormedBefore (s.contextBytes k) 16) :
    (∃ t, buildContext s k = .ok t ∧ TableOfCodes (s.contextBytes k) 16 t
      ∧ ∀ w < 256, ∃ sym < 16, codeCovers (s.contextBytes k) sym w)
    ∨ ∃ w : Nat, w < 256 ∧ buildContext s k = .error ⟨.huffIncomplete, k, w⟩
      ∧ (∀ sym < 16, ¬ codeCovers (s.contextBytes k) sym w)
      ∧ ∀ w' < w, ∃ sym < 16, codeCovers (s.contextBytes k) sym w' := by
  obtain ⟨t, hbuilt, htab⟩ := buildSymbols_wellFormed hin le_rfl hwf
  have hlen := htab.length_eq
  have hfilled {w : Nat} (hw : w < t.length) : t[w] ≠ 0 ↔ ∃ sym < 16, codeCovers (s.contextBytes k) sym w := by
    rw [← htab.ne_zero_iff hwf (hlen ▸ hw), List.getD_eq_getElem _ _ hw]
  cases hfirst : firstUnfilled t with
  | none =>
    have hall := List.findIdx?_eq_none_iff.mp hfirst
    refine .inl ⟨t, by simp only [buildContext, hbuilt, hfirst], htab, fun w hw => ?_⟩
    exact (hfilled (hlen ▸ hw)).mp (by simpa using hall t[w] (List.getElem_mem _))
  | some w =>
    obtain ⟨hw, hzero, hbefore⟩ := List.findIdx?_eq_some_iff_getElem.mp hfirst
    refine .inr ⟨w, hlen ▸ hw, by simp only [buildContext, hbuilt, hfirst], ?_, fun w' hw' => ?_⟩
    · simpa using mt (hfilled hw).mpr (by simpa using hzero)
    · exact (hfilled (hw'.trans hw)).mp (by simpa using hbefore w' hw')

/-- What a context that builds is, and its table (42_huffman.md R280, R282, R284). -/
theorem buildContext_ok {t : List Byte} (hbuilt : buildContext s k = .ok t) :
    wellFormedBefore (s.contextBytes k) 16 ∧ TableOfCodes (s.contextBytes k) 16 t
      ∧ ∀ w < 256, ∃ sym < 16, codeCovers (s.contextBytes k) sym w := by
  have hwf : wellFormedBefore (s.contextBytes k) 16 := by
    by_contra hbad
    obtain ⟨sym, hsym, hwf, kind, hkind⟩ := exists_malformedCode hbad
    cases hbuilt.symm.trans (buildContext_malformed hin hsym hwf hkind)
  rcases buildContext_cases hin hwf with ⟨t', hok, htab, hall⟩ | ⟨w, -, hfault, -⟩
  · cases hbuilt.symm.trans hok
    exact ⟨hwf, htab, hall⟩
  · cases hbuilt.symm.trans hfault

end

end Sys2Proof.Machine
end

section
/-! PROOF. Kraft equality (42_huffman.md R282, R286, R294): well-formed codes are those that fit their lengths
and of which none begins another, and the windows they cover are as many as the sum of 2^(8 - len). -/

namespace Sys2Proof.Machine

variable {ctx : List Byte}

/-! ### Prefixes and windows -/

/-- Of two codes that cover one window the longer begins with the shorter (42_huffman.md R282). -/
theorem isPrefix_of_covers {a b w : Nat} (hle : codeLength ctx a ≤ codeLength ctx b) (hb : codeLength ctx b ≤ 8)
    (hcova : codeCovers ctx a w) (hcovb : codeCovers ctx b w) :
    codeValue ctx b / 2 ^ (codeLength ctx b - codeLength ctx a) = codeValue ctx a := by
  rw [← hcova.2, ← hcovb.2, Nat.div_div_eq_div_mul, ← Nat.pow_add]
  congr 2
  omega

/-- A code that begins another covers one of its windows, the first (42_huffman.md R282). -/
theorem covers_of_isPrefix {a b : Nat} (ha : codeLength ctx a ≠ 0) (hle : codeLength ctx a ≤ codeLength ctx b)
    (hb : codeLength ctx b ≤ 8)
    (hprefix : codeValue ctx b / 2 ^ (codeLength ctx b - codeLength ctx a) = codeValue ctx a) :
    ∃ w, codeCovers ctx a w ∧ codeCovers ctx b w := by
  have hdiv : codeValue ctx b * 2 ^ (8 - codeLength ctx b) / 2 ^ (8 - codeLength ctx b) = codeValue ctx b :=
    Nat.mul_div_cancel _ (Nat.two_pow_pos _)
  refine ⟨codeValue ctx b * 2 ^ (8 - codeLength ctx b), ⟨ha, ?_⟩, by omega, hdiv⟩
  rw [← hprefix, show 8 - codeLength ctx a = (8 - codeLength ctx b) + (codeLength ctx b - codeLength ctx a) by omega,
    Nat.pow_add, ← Nat.div_div_eq_div_mul, hdiv]

/-- No two well-formed codes cover one window (42_huffman.md R294). -/
theorem wellFormedBefore.unique {n a b w : Nat} (hwf : wellFormedBefore ctx n) (ha : a < n) (hb : b < n)
    (hcova : codeCovers ctx a w) (hcovb : codeCovers ctx b w) : a = b := by
  have hw := hcova.lt (hwf a ha).1
  rcases Nat.lt_trichotomy a b with hab | hab | hab
  · exact absurd ⟨hcovb, hcova⟩ ((hwf b hb).2 a hab w hw)
  · exact hab
  · exact absurd ⟨hcova, hcovb⟩ ((hwf a ha).2 b hab w hw)

/-- Codes that fit are well formed exactly when none begins another (42_huffman.md R282). -/
theorem wellFormedBefore_iff_prefixFree (hfit : codesFit ctx) : wellFormedBefore ctx 16 ↔ prefixFree ctx := by
  constructor
  · intro hwf a ha b hb hne hpresent hle hprefix
    obtain ⟨w, hcova, hcovb⟩ := covers_of_isPrefix hpresent hle (hfit b hb).1 hprefix
    exact hne (hwf.unique ha hb hcova hcovb)
  · refine fun hfree a ha => ⟨hfit a ha, fun b hb w _ ⟨hcova, hcovb⟩ => ?_⟩
    have hb16 := hb.trans ha
    rcases Nat.le_total (codeLength ctx a) (codeLength ctx b) with hle | hle
    · exact hfree a ha b hb16 hb.ne' hcova.1 hle (isPrefix_of_covers hle (hfit b hb16).1 hcova hcovb)
    · exact hfree b hb16 a ha hb.ne hcovb.1 hle (isPrefix_of_covers hle (hfit a ha).1 hcovb hcova)

/-! ### Counting windows -/

/-- The windows that symbol sym's code covers. -/
def windowsOf (ctx : List Byte) (sym : Nat) : Finset Nat := (Finset.range 256).filter (codeCovers ctx sym)

theorem mem_windowsOf {sym w : Nat} (hfit : codeFits ctx sym) : w ∈ windowsOf ctx sym ↔ codeCovers ctx sym w := by
  rw [windowsOf, Finset.mem_filter, Finset.mem_range, and_iff_right_of_imp (codeCovers.lt hfit)]

/-- A present code of len bits covers 2^(8 - len) windows (42_huffman.md R286). -/
theorem card_windowsOf {sym : Nat} (hfit : codeFits ctx sym) :
    (windowsOf ctx sym).card = if codeLength ctx sym = 0 then 0 else 2 ^ (8 - codeLength ctx sym) := by
  split
  · rename_i hzero
    rw [windowsOf, Finset.card_eq_zero, Finset.filter_eq_empty_iff]
    exact fun w _ hcov => hcov.1 hzero
  · rename_i hne
    have hIco : windowsOf ctx sym = Finset.Ico (codeValue ctx sym * 2 ^ (8 - codeLength ctx sym))
        ((codeValue ctx sym + 1) * 2 ^ (8 - codeLength ctx sym)) := by
      ext w
      rw [mem_windowsOf hfit, codeCovers_iff, and_iff_right hne, Finset.mem_Ico]
    rw [hIco, Nat.card_Ico, ← Nat.sub_mul, Nat.add_sub_cancel_left, Nat.one_mul]

/-- The windows that some code covers. -/
def coveredWindows (ctx : List Byte) : Finset Nat := (Finset.range 16).biUnion (windowsOf ctx)

theorem coveredWindows_subset : coveredWindows ctx ⊆ Finset.range 256 :=
  Finset.biUnion_subset.mpr fun _ _ => Finset.filter_subset _ _

theorem mem_coveredWindows (hfit : codesFit ctx) {w : Nat} :
    w ∈ coveredWindows ctx ↔ ∃ sym < 16, codeCovers ctx sym w := by
  simp only [coveredWindows, Finset.mem_biUnion, Finset.mem_range]
  exact exists_congr fun sym => and_congr_right fun hsym => mem_windowsOf (hfit sym hsym)

theorem kraftSum_eq_sum (ctx : List Byte) : kraftSum ctx
    = ∑ sym ∈ Finset.range 16, if codeLength ctx sym = 0 then 0 else 2 ^ (8 - codeLength ctx sym) := by
  rw [kraftSum]
  exact (List.sum_toFinset _ List.nodup_range).symm.trans (by rw [List.toFinset_range])

/-- The Kraft sum of well-formed codes counts the windows they cover (42_huffman.md R286). -/
theorem card_coveredWindows (hwf : wellFormedBefore ctx 16) : (coveredWindows ctx).card = kraftSum ctx := by
  have hfit (sym : Nat) (hsym : sym ∈ Finset.range 16) : codeFits ctx sym := (hwf sym (Finset.mem_range.mp hsym)).1
  rw [coveredWindows, Finset.card_biUnion]
  · exact (Finset.sum_congr rfl fun sym hsym => card_windowsOf (hfit sym hsym)).trans (kraftSum_eq_sum ctx).symm
  · intro a ha b hb hne
    refine Finset.disjoint_left.mpr fun w hcova hcovb => hne ?_
    rw [mem_windowsOf (hfit a ha)] at hcova
    rw [mem_windowsOf (hfit b hb)] at hcovb
    exact hwf.unique (Finset.mem_range.mp ha) (Finset.mem_range.mp hb) hcova hcovb

/-- Well-formed codes have a Kraft sum of at most 256 (42_huffman.md R286). -/
theorem kraftSum_le (hwf : wellFormedBefore ctx 16) : kraftSum ctx ≤ 256 := by
  rw [← card_coveredWindows hwf, ← Finset.card_range 256]
  exact Finset.card_le_card coveredWindows_subset

/-- Well-formed codes cover every window exactly when their Kraft sum is 256 (42_huffman.md R286). -/
theorem kraftSum_eq_iff (hwf : wellFormedBefore ctx 16) :
    kraftSum ctx = 256 ↔ ∀ w < 256, ∃ sym < 16, codeCovers ctx sym w := by
  have hfit : codesFit ctx := fun sym hsym => (hwf sym hsym).1
  have hall : (∀ w < 256, ∃ sym < 16, codeCovers ctx sym w) ↔ Finset.range 256 ⊆ coveredWindows ctx := by
    simp only [← mem_coveredWindows hfit, Finset.subset_iff, Finset.mem_range]
  rw [hall, ← card_coveredWindows hwf]
  refine ⟨fun hcard => ?_, fun hsub => ?_⟩
  · exact (Finset.eq_of_subset_of_card_le coveredWindows_subset (by rw [hcard, Finset.card_range])).ge
  · rw [coveredWindows_subset.antisymm hsub, Finset.card_range]

/-! ### The statements -/

/-- Settles O42: the first malformed code by its kind; without one, a full table is a Kraft sum of 256. -/
theorem contextBuildsExactlyAtKraftEquality : Obligations.ContextBuildsExactlyAtKraftEquality := by
  intro s k hin
  refine ⟨fun sym hsym hwf => ⟨fun hlong => ?_, fun hle hne hwide => ?_, fun hle hcode hover => ?_⟩, fun hfit => ?_⟩
  · exact buildContext_malformed hin hsym hwf (.inl ⟨hlong, rfl⟩)
  · exact buildContext_malformed hin hsym hwf (.inr (.inl ⟨hle, hne, hwide, rfl⟩))
  · exact buildContext_malformed hin hsym hwf (.inr (.inr ⟨⟨hle, fun _ => hcode⟩, hover, rfl⟩))
  rw [← wellFormedBefore_iff_prefixFree hfit]
  refine ⟨⟨fun ⟨tab, hbuilt⟩ => ?_, fun ⟨hwf, hkraft⟩ => ?_⟩, fun hkraft => ?_, fun hwf hkraft => ?_⟩
  · obtain ⟨hwf, -, hall⟩ := buildContext_ok hin hbuilt
    exact ⟨hwf, (kraftSum_eq_iff hwf).mpr hall⟩
  · rcases buildContext_cases hin hwf with ⟨tab, hbuilt, -⟩ | ⟨w, hw, -, hnone, -⟩
    · exact ⟨tab, hbuilt⟩
    · obtain ⟨sym, hsym, hcov⟩ := (kraftSum_eq_iff hwf).mp hkraft w hw
      exact absurd hcov (hnone sym hsym)
  · obtain ⟨sym, hsym, hwf, kind, hbad⟩ := exists_malformedCode fun hwf => hkraft.not_ge (kraftSum_le hwf)
    refine ⟨_, buildContext_malformed hin hsym hwf hbad, rfl, ?_⟩
    obtain ⟨hle, hcode⟩ := hfit sym hsym
    rcases hbad with ⟨hlong, -⟩ | ⟨-, hne, hwide, -⟩ | ⟨-, -, hkind⟩
    · exact absurd hle hlong.not_ge
    · exact absurd (hcode hne) hwide.not_gt
    · exact hkind
  · rcases buildContext_cases hin hwf with ⟨tab, -, -, hall⟩ | hfault
    · exact absurd ((kraftSum_eq_iff hwf).mpr hall) hkraft.ne
    · exact hfault

/-- Settles O43: the code is the one that covers the window, by the table's own entry. -/
theorem lookupFindsTheUniquePrefixCode : Obligations.LookupFindsTheUniquePrefixCode := by
  intro s k tab hin hbuilt x hx
  obtain ⟨hwf, htab, hall⟩ := buildContext_ok hin hbuilt
  obtain ⟨sym, hsym, hcov⟩ := hall x hx
  refine ⟨sym, hsym, hcov.1, hcov.2.symm, ?_, fun sym' hsym' hne hcode => ?_⟩
  · have hentry := htab.covered x hx sym hsym hcov
    have hlen := htab.length_eq ▸ hx
    rw [List.getD_eq_getElem _ _ hlen] at hentry
    rw [List.getElem?_eq_getElem hlen, hentry, codeEntry, Nat.mul_comm]
  · exact hwf.unique hsym' hsym ⟨hne, hcode.symm⟩ hcov

end Sys2Proof.Machine
end

section
/-! PROOF. HBUILD (42_huffman.md R280, R284): its checks, the three contexts one after another, and what a completed
build leaves in every entry. -/

namespace Sys2Proof.Machine

/-! ### The contexts one after another -/

theorem buildSymbols_withTables (s : State) (tab : HuffTables) (built : Bool) (k base : Nat) (l : List Nat)
    (t : List Byte) :
    buildSymbols { s with hTab := tab, hBuilt := built } k base l t = buildSymbols s k base l t := by
  induction l generalizing t with
  | nil => rfl
  | cons sym rest ih =>
    unfold buildSymbols
    simp only [ih]
    rfl

/-- A context is built from HEADER, whatever the tables hold (42_huffman.md R280). -/
theorem buildContext_withTables (s : State) (tab : HuffTables) (built : Bool) (k : Nat) :
    buildContext { s with hTab := tab, hBuilt := built } k = buildContext s k := by
  simp only [buildContext, buildSymbols_withTables]
  rfl

/-- Settles O44: each context is built from HEADER alone, after the tables before it are stored. -/
theorem hbuildStoresTheBuiltTables : Obligations.HbuildStoresTheBuiltTables := by
  intro s ⟨hl, hread⟩
  have hexec : exec .hbuild s = (hbuildBody s).close 0x30 := exec_host rfl hl hread
  refine ⟨fun hclosed => ?_, fun hopen hraw => ?_, fun hopen hentropy => ?_⟩
  · exact hexec.trans (congrArg _ (if_pos hclosed))
  · exact hexec.trans (congrArg _ ((if_neg (by simp [hopen])).trans (if_pos hraw)))
  have hbody : hbuildBody s = (buildContexts [0, 1, 2] { s with hTab := s.hTab, hBuilt := false }).andThen
      fun u => .done { u with hBuilt := true } :=
    (if_neg (by simp [hopen])).trans (if_neg (by simp [hentropy]))
  rw [hexec, hbody]
  refine ⟨fun x h0 => ?_, fun t0 x h0 h1 => ?_, fun t0 t1 x h0 h1 h2 => ?_, fun t0 t1 t2 h0 h1 h2 => ?_⟩
  · simp only [buildContexts, buildContext_withTables, h0]
    rfl
  · simp only [buildContexts, buildContext_withTables, h0, h1]
    rfl
  · simp only [buildContexts, buildContext_withTables, h0, h1, h2]
    rfl
  · simp only [buildContexts, buildContext_withTables, h0, h1, h2]
    rfl

/-- An HBUILD that leaves READY has built the three contexts (42_huffman.md R280). -/
theorem exec_hbuild_ready {s t : State} (hissue : s.hostMayIssue) (hexec : exec .hbuild s = .next t)
    (hl : t.lifeState = .ready) :
    ∃ t0 t1 t2, buildContext s 0 = .ok t0 ∧ buildContext s 1 = .ok t1 ∧ buildContext s 2 = .ok t2
      ∧ t = { s with hTab := ⟨some t0, some t1, some t2⟩, hBuilt := true } := by
  obtain ⟨hclosed, hraw, hbuild⟩ := hbuildStoresTheBuiltTables s hissue
  have hready {u : State} {x : Trap} (h : exec .hbuild s = .next (u.raise 0x30 x)) : False := by
    cases hexec.symm.trans h
    cases hl
  have hopen : s.vOpen = true := eq_true_of_ne_false fun h => hready (hclosed h)
  have hentropy : s.vEntropy = true := eq_true_of_ne_false fun h => hready (hraw hopen h)
  obtain ⟨hfault0, hfault1, hfault2, hdone⟩ := hbuild hopen hentropy
  cases h0 : buildContext s 0 with
  | error x => exact (hready (hfault0 x h0)).elim
  | ok t0 =>
  cases h1 : buildContext s 1 with
  | error x => exact (hready (hfault1 t0 x h0 h1)).elim
  | ok t1 =>
  cases h2 : buildContext s 2 with
  | error x => exact (hready (hfault2 t0 t1 x h0 h1 h2)).elim
  | ok t2 => exact ⟨t0, t1, t2, rfl, rfl, rfl, Host.Outcome.next.inj (hexec.symm.trans (hdone t0 t1 t2 h0 h1 h2))⟩

/-! ### The lengths in the entries -/

/-- The table has 256 entries, each unfilled or with a length in 1 .. 8 (10_state.md R71). -/
def LengthsInRange (t : List Byte) : Prop :=
  t.length = 256
  ∧ ∀ w < 256, t.getD w 0 ≠ 0 → 1 ≤ (lowNibble (t.getD w 0)).toNat ∧ (lowNibble (t.getD w 0)).toNat ≤ 8

theorem lengthsInRange_unfilled : LengthsInRange (List.replicate 256 0) :=
  ⟨List.length_replicate, fun _ hw hne => absurd (List.getD_replicate _ hw) hne⟩

/-- A code that is placed leaves lengths in 1 .. 8 (42_huffman.md R280). -/
theorem placeCode_lengthsInRange {k sym len code : Nat} {t t' : List Byte} (hne : len ≠ 0) (h : LengthsInRange t)
    (hplaced : placeCode k sym len code t = .ok t') : LengthsInRange t' := by
  obtain ⟨hlen, hentries⟩ := h
  unfold placeCode at hplaced
  split at hplaced
  · cases hplaced
  rename_i hle
  split at hplaced
  · cases hplaced
  rename_i hcode
  have hend := windowsEnd_le (Nat.not_lt.mp hle) (Nat.not_le.mp hcode)
  rcases fillEntries_cases (Nat.mul_le_mul_right (2 ^ (8 - len)) code.le_succ) (hlen ▸ hend)
    (BitVec.ofNat 8 (sym * 16 + len)) with ⟨-, hnone⟩ | ⟨-, u, hsome, hulen, hu⟩
  · rw [hnone] at hplaced
    cases hplaced
  · rw [hsome] at hplaced
    cases hplaced
    refine ⟨hulen.trans hlen, fun w hw => ?_⟩
    rw [hu w]
    split
    · rw [lowNibble_entry sym (Nat.not_lt.mp hle)]
      exact fun _ => ⟨Nat.one_le_iff_ne_zero.mpr hne, Nat.not_lt.mp hle⟩
    · exact hentries w hw

theorem buildSymbol_lengthsInRange {s : State} {k base sym : Nat} {t t' : List Byte} (h : LengthsInRange t)
    (hbuilt : buildSymbol s k base sym t = .ok t') : LengthsInRange t' := by
  unfold buildSymbol at hbuilt
  split at hbuilt
  · cases hbuilt
  · split at hbuilt
    · cases hbuilt
      exact h
    · split at hbuilt
      · cases hbuilt
      · exact placeCode_lengthsInRange ‹_› h hbuilt

theorem buildSymbols_lengthsInRange {s : State} {k base : Nat} {l : List Nat} {t t' : List Byte}
    (h : LengthsInRange t) (hbuilt : buildSymbols s k base l t = .ok t') : LengthsInRange t' := by
  induction l generalizing t with
  | nil =>
    cases hbuilt
    exact h
  | cons sym rest ih =>
    rw [buildSymbols] at hbuilt
    split at hbuilt
    · cases hbuilt
    · exact ih (buildSymbol_lengthsInRange h ‹_›) hbuilt

/-- A built table has 256 entries, each filled with a length in 1 .. 8, wherever its context lies (42_huffman.md
R284). -/
theorem buildContext_filled {s : State} {k : Nat} {t : List Byte} (hbuilt : buildContext s k = .ok t) :
    t.length = 256
      ∧ ∀ x < 256, 1 ≤ (lowNibble (t.getD x 0)).toNat ∧ (lowNibble (t.getD x 0)).toNat ≤ 8 := by
  unfold buildContext at hbuilt
  split at hbuilt
  · cases hbuilt
  · rename_i u hsymbols
    split at hbuilt
    · cases hbuilt
    · rename_i hfull
      cases hbuilt
      obtain ⟨hlen, hentries⟩ := buildSymbols_lengthsInRange lengthsInRange_unfilled hsymbols
      refine ⟨hlen, fun x hx => hentries x hx ?_⟩
      rw [List.getD_eq_getElem _ _ (hlen ▸ hx)]
      simpa using List.findIdx?_eq_none_iff.mp hfull _ (List.getElem_mem _)

/-- Settles O41: a completed HBUILD leaves the three built tables. -/
theorem hbuildFillsEveryEntry : Obligations.HbuildFillsEveryEntry := by
  intro s t hissue hexec hl
  obtain ⟨t0, t1, t2, h0, h1, h2, rfl⟩ := exec_hbuild_ready hissue hexec hl
  refine ⟨rfl, fun k hk => ?_⟩
  match k, hk with
  | 0, _ => exact ⟨t0, rfl, buildContext_filled h0⟩
  | 1, _ => exact ⟨t1, rfl, buildContext_filled h1⟩
  | 2, _ => exact ⟨t2, rfl, buildContext_filled h2⟩

end Sys2Proof.Machine
end

section
/-! PROOF. HDECODE (42_huffman.md R290): its checks in their order, the 18 codes it reads, and the nine bytes it packs
their symbols into. -/

namespace Sys2Proof.Machine

/-! ### HDECODE's checks -/

/-- The end of a block whose codes are read: the first code beyond the stream is its fault, and else its bytes are
stored (42_huffman.md R290). -/
def State.storeBlock (s : State) (dst : Nat) : Except Trap (List (BitVec 4) × Nat) → Exit
  | .error e => .trap s e
  | .ok (syms, p) => (s.storeBytes dst (packNibbles syms)).andThen fun t =>
      .done { t with vBitPos := s.fitU32 .bitPos p }

/-- HDECODE past the checks of the unit and of its operand (42_huffman.md R290). -/
def State.unpackBlock (s : State) (dst : Nat) : Exit :=
  match s.hazardAt dst (dst + 9) with
  | some lo => .trap s ⟨.hazard, dst, lo⟩
  | none => s.storeBlock dst (decodeSymbols s blockContexts s.vBitPos.toNat)

theorem hdecodeBody_checked (s : State) :
    CheckedBy (.trap s) (s.unpackBlock s.arg0.toNat) s.hdecodeChecks (hdecodeBody s) :=
  .cons .rfl <| .cons .rfl <| .cons .rfl <| .cons .rfl .nil

theorem exec_hdecode {s : State} (h : s.sourceMayIssue) : exec .hdecode s = (hdecodeBody s).close 0x31 :=
  exec_source rfl h.1 h.2

/-- HDECODE where it passes its checks, by the codes it reads (42_huffman.md R290). -/
theorem exec_hdecode_passes {s : State} (h : s.hdecodePasses) :
    exec .hdecode s = (s.storeBlock s.arg0.toNat (decodeSymbols s blockContexts s.vBitPos.toNat)).close 0x31 := by
  obtain ⟨hissue, -, hopen, hentropy, hbuilt, hin, hfree⟩ := h
  have hpass : allPass s.hdecodeChecks := by
    simp only [State.hdecodeChecks, allPass_cons_iff]
    exact ⟨by simp [hopen], by simp [hentropy], by simp [hbuilt], not_lt.mpr hin, nofun⟩
  rw [exec_hdecode hissue, (hdecodeBody_checked s).2 hpass, State.unpackBlock,
    (s.hazardAt_eq_none_iff_noHazard _ _).mpr hfree]

/-- The block's bytes lie inside the window, and so inside STORAGE (10_state.md R46). -/
theorem State.hdecodePasses.inside {s : State} (h : s.hdecodePasses) : s.arg0.toNat + 9 ≤ s.storageSize := by
  obtain ⟨hissue, hinv, -, -, -, hin, -⟩ := h
  obtain ⟨-, -, -, hcap, -⟩ := State.windowBounds_of_ready hinv hissue.1
  have hwindow : s.windowEnd ≤ s.sizeBytes.toNat := s.samples_le_sizeBytes hcap
  rw [State.storageSize]
  omega

/-! ### The codes of a block -/

/-- Symbol i of a block is read through context 0, 1, then 2 (42_huffman.md R290). -/
theorem blockContexts_eq : blockContexts = (List.range 18).map (min · 2) := rfl

/-- The first n symbols of a block, symbol i read from stream bit `p i` (42_huffman.md R290). -/
def State.blockSymbols (s : State) (p : Nat → Nat) (n : Nat) : List (BitVec 4) :=
  (List.range n).map fun i => highNibble (s.blockEntry i (p i))

theorem State.blockSymbols_length (s : State) (p : Nat → Nat) (n : Nat) : (s.blockSymbols p n).length = n := by
  rw [State.blockSymbols, List.length_map, List.length_range]

theorem State.getElem?_blockSymbols (s : State) (p : Nat → Nat) {n i : Nat} (hi : i < n) :
    (s.blockSymbols p n)[i]? = some (highNibble (s.blockEntry i (p i))) := by
  rw [State.blockSymbols, List.getElem?_map, List.getElem?_range hi, Option.map_some]

theorem State.blockSymbols_succ (s : State) (p : Nat → Nat) (n : Nat) :
    s.blockSymbols p (n + 1) = s.blockSymbols p n ++ [highNibble (s.blockEntry n (p n))] := by
  rw [State.blockSymbols, List.range_succ, List.map_append, List.map_singleton, State.blockSymbols]

section
variable {s : State} {p : Nat → Nat} {n : Nat}
  (hp : ∀ i < n, p (i + 1) = p i + (lowNibble (s.blockEntry i (p i))).toNat)
include hp

/-- The codes that end inside the stream are read one after another (42_huffman.md R290). -/
theorem decodeSymbols_range_append (hends : ∀ i < n, p (i + 1) ≤ 8 * s.stream.length) (rest : List Nat) :
    decodeSymbols s ((List.range n).map (min · 2) ++ rest) (p 0)
      = (decodeSymbols s rest (p n)).map (Prod.map (s.blockSymbols p n ++ ·) id) := by
  induction n generalizing rest with
  | zero =>
    rw [List.range_zero, List.map_nil, List.nil_append]
    cases decodeSymbols s rest (p 0) <;> rfl
  | succ n ih =>
    have hcode : decodeSymbols s (min n 2 :: rest) (p n)
        = (decodeSymbols s rest (p (n + 1))).map (Prod.map (highNibble (s.blockEntry n (p n)) :: ·) id) := by
      rw [decodeSymbols, ← hp n n.lt_succ_self, if_neg (Nat.not_lt.mpr (hends n n.lt_succ_self))]
      cases decodeSymbols s rest (p (n + 1)) <;> rfl
    rw [List.range_succ, List.map_append, List.append_assoc, List.map_singleton, List.singleton_append,
      ih (fun i hi => hp i (by omega)) (fun i hi => hends i (by omega)), hcode, s.blockSymbols_succ]
    cases decodeSymbols s rest (p (n + 1)) <;> simp [Except.map, Prod.map]

/-- The bits at which the codes start do not fall. -/
theorem blockBits_mono {i j : Nat} (hij : i ≤ j) (hj : j ≤ n) : p i ≤ p j := by
  induction j, hij using Nat.le_induction with
  | base => exact le_rfl
  | succ j _ ih =>
    have hnext := hp j hj
    have hle := ih (by omega)
    omega

end

/-! ### The packed bytes -/

/-- Byte k is packed from symbols 2k and 2k + 1 (42_huffman.md R290). -/
theorem getElem?_packNibbles {ns : List (BitVec 4)} {k : Nat} {hi lo : BitVec 4} (hhi : ns[2 * k]? = some hi)
    (hlo : ns[2 * k + 1]? = some lo) : (packNibbles ns)[k]? = some (hi ++ lo) := by
  fun_induction packNibbles ns generalizing k with
  | case1 hi' lo' rest ih =>
    cases k with
    | zero =>
      cases hhi
      cases hlo
      rfl
    | succ k => exact ih hhi hlo
  | case2 ns hshort =>
    match ns, hshort with
    | [], _ => cases hhi
    | [_], _ => cases hlo
    | a :: b :: rest, hshort => exact (hshort a b rest rfl).elim

/-- Settles O45: the 18 codes end inside the stream, and the packed bytes fit STORAGE. -/
theorem hdecodeUnpacksOneBlock : Obligations.HdecodeUnpacksOneBlock := by
  intro s p hpasses hstart hp hend hfit
  have hends (i : Nat) (hi : i < 18) : p (i + 1) ≤ 8 * s.stream.length := (blockBits_mono hp hi le_rfl).trans hend
  have hsyms : decodeSymbols s blockContexts s.vBitPos.toNat = .ok (s.blockSymbols p 18, p 18) := by
    rw [← hstart, blockContexts_eq, ← List.append_nil ((List.range 18).map _), decodeSymbols_range_append hp hends,
      ← List.append_nil (s.blockSymbols p 18)]
    rfl
  have hlen : (packNibbles (s.blockSymbols p 18)).length = 9 := by rw [packNibbles_length, s.blockSymbols_length]
  have hstored := State.storeBytes_inside (s := s) (off := s.arg0.toNat) (bs := packNibbles (s.blockSymbols p 18))
    (.inr (hlen ▸ hpasses.inside))
  refine ⟨_, ?_, fun k hk => ?_, fun a ha => Memory.read_writeBytes_outside hlen ha s.storage⟩
  · rw [exec_hdecode_passes hpasses, hsyms, State.storeBlock, hstored, s.fitU32_ofNat .bitPos hfit]
    rfl
  · exact Memory.read_writeBytes_of_getElem? (getElem?_packNibbles
      (s.getElem?_blockSymbols p (by omega)) (s.getElem?_blockSymbols p (by omega))) _ _

/-- Settles O46: the checks in their order, and the first code that ends beyond the stream. -/
theorem hdecodeFaultsChangeNothing : Obligations.HdecodeFaultsChangeNothing := by
  intro s hissue
  obtain ⟨hfails, hpass⟩ := hdecodeBody_checked s
  refine ⟨fun x hx => ?_, fun hall hhazard => ?_, fun p n hpasses hstart hn hp hends hbeyond => ?_⟩
  · rw [exec_hdecode hissue, hfails x hx]
    rfl
  · obtain ⟨j, hj, hover, hat⟩ := State.exists_hazard hhazard
    refine ⟨j, hj, hover, ?_⟩
    rw [exec_hdecode hissue, hpass hall, State.unpackBlock, hat]
    rfl
  · obtain ⟨rest, hrange⟩ := range_eq_append_cons hn
    have hsyms := decodeSymbols_range_append (fun i hi => hp i hi.le) hends (min n 2 :: rest.map (min · 2))
    rw [decodeSymbols, if_pos (by rw [← hp n le_rfl]; exact hbeyond), ← List.map_cons (f := (min · 2)),
      ← List.map_append, ← hrange, ← blockContexts_eq, hstart] at hsyms
    rw [exec_hdecode_passes hpasses, hsyms]
    rfl

end Sys2Proof.Machine
end

section
/-! PROOF. The source contract (43_source_contract.md R318, R332, R336, R338): GETs that read nothing or go on without
a seek, the alignment of what APPEND returns, and RAW's answer to a read. -/

namespace Sys2Proof.Machine

/-- What holds of every end of a command's part holds of the state it answers. -/
theorem Exit.Ends.of_close {R : State → Prop} {e : Exit} (he : e.Ends R) {op : BitVec 8} {t : State}
    (h : e.close op = .next t) : R t := by
  rcases Exit.close_eq_next h with rfl | ⟨u, x, rfl, rfl⟩
  · exact he
  · exact he op

/-! ### GETs inside the window -/

theorem exec_get_continuous {s : State} (h : s.getPasses) (hcont : ¬ s.discontinuous s.arg0.toInt = true) :
    exec .get s = (getContinuous s.arg0.toInt s.arg1.toInt s.latchGet).close 0x05 :=
  (exec_get_passes h).trans (congrArg _ (if_neg hcont))

/-- The continuous path of a GET whose range ends inside the window (40_sample_buffer.md R185). -/
theorem getContinuous_resident {s : State} {wpos wlen : Int} (hidx : 0 ≤ wpos - s.writePos.toInt)
    (hidxMax : wpos - s.writePos.toInt ≤ 2147483647) (hin : wpos + wlen ≤ s.writePos.toInt + s.writeLen.toInt) :
    getContinuous wpos wlen s = .done ((s.markCursor (wpos - s.writePos.toInt)).getResult wpos wlen) := by
  rw [getContinuous, s.fitS32_eq _ (by omega) hidxMax]
  exact if_neg (by omega)

/-- GET's result where the range is resident and its offset legal: the whole length (40_sample_buffer.md R188). -/
theorem State.getResult_resident {s : State} {wpos wlen : Int} (hlo : s.writePos.toInt ≤ wpos) (hwlen : 0 ≤ wlen)
    (hin : wpos + wlen ≤ s.writePos.toInt + s.writeLen.toInt)
    (hoff : (wpos - s.writePos.toInt) * s.bytesPerSample < 2 ^ 32) :
    s.getResult wpos wlen = { s with
      res0 := BitVec.ofInt 32 ((wpos - s.writePos.toInt) * s.bytesPerSample)
      res1 := BitVec.ofInt 32 wlen } := by
  rw [s.getResult_eq wlen hlo hoff, min_eq_left (by omega), max_eq_right hwlen]

/-- Settles O20: the range ends inside the window, whose bytes lie inside SIZE_BYTES, so that RES0 is legal. -/
theorem residentGetPresentsNoRead : Obligations.ResidentGetPresentsNoRead := by
  intro s hpass hinv hwlen hlo hcont hin
  have ⟨⟨hl, _⟩, _, hlen0, _⟩ := hpass
  obtain ⟨hpos0, -, -, hcap, -, hsize⟩ := State.windowBounds_of_ready hinv hl
  have hmax := (toInt_bounds s.arg0).2
  have hoff : (s.arg0.toInt - s.writePos.toInt) * s.bytesPerSample ≤ s.sizeBytes.toNat :=
    s.samples_le_sizeBytes (by omega)
  rw [exec_get_continuous hpass (by rw [s.discontinuous_iff]; omega),
    getContinuous_resident (s := s.latchGet) (Int.sub_nonneg.mpr hlo) ((Int.sub_le_self _ hpos0).trans hmax) hin,
    State.getResult_resident (s := s.latchGet.markCursor _) hlo hlen0 hin
      ((hoff.trans hsize).trans_lt (by decide)), BitVec.ofInt_toInt]
  rfl

/-! ### GETs in sequence -/

/-- No read is presented, or one that does not seek (43_source_contract.md R332). -/
def State.presentsNoSeek (t : State) : Prop := t.inRead = true → t.rreqSeek = false

theorem State.presentsNoSeek_of_noRead {t : State} (h : t.inRead = false) : t.presentsNoSeek := by
  simp [State.presentsNoSeek, h]

theorem getContinuous_ends_noSeek {s : State} (hread : s.inRead = false) (wpos wlen : Int) :
    (getContinuous wpos wlen s).Ends State.presentsNoSeek := by
  unfold getContinuous
  dsimp only
  split
  · exact .guard (fun _ _ => State.presentsNoSeek_of_noRead hread) fun _ _ => rfl
  · exact State.presentsNoSeek_of_noRead hread

theorem getDiscontinuous_ends_noSeek {s : State} (hread : s.inRead = false) {wpos : Int}
    (hnew : wpos = s.nextExpected.toInt) (wlen : Int) :
    (getDiscontinuous wpos wlen s).Ends State.presentsNoSeek :=
  .guard (fun _ _ => State.presentsNoSeek_of_noRead hread) fun _ _ => decide_eq_false (not_not.mpr hnew)

/-- Settles O22: the position is inside the window or NEW, so that only an empty window makes the GET discontinuous. -/
theorem nextGetInSequenceNeverSeeks : Obligations.NextGetInSequenceNeverSeeks := by
  intro s t hpass hbetween hinv hnew hlo hhi hlen0 hres1 hnext hexec
  obtain ⟨hl, hread, hget, -⟩ := hbetween
  obtain ⟨-, hitems, -⟩ := hinv.resolve_left (by simp [hl])
  obtain ⟨-, -, -, -, hitem4, -⟩ := hitems hget
  have hend : s.nextExpected.toInt = s.writePos.toInt + s.writeLen.toInt := hitem4.resolve_left hnew
  rw [exec_get_passes hpass] at hexec
  refine Exit.Ends.of_close (R := State.presentsNoSeek) ?_ hexec
  split
  · rename_i hdisc
    rw [s.discontinuous_iff] at hdisc
    exact getDiscontinuous_ends_noSeek (s := s.latchGet) hread (by simp only [State.latchGet]; omega) _
  · exact getContinuous_ends_noSeek (s := s.latchGet) hread _ _

/-! ### A step while a command is held -/

/-- Unless the block has left READY, `h` is still held. -/
def State.waitsOn (h : Held) (t : State) : Prop := t.lifeState = .ready → t.held = some h

section
variable {h : Held} {s t : State} (hheld : s.held = some h)
include hheld

theorem State.waitsOn_of_held : s.waitsOn h := fun _ => hheld

theorem State.waitsOn_raiseUnlessFaulted (x : Trap) : (s.raiseUnlessFaulted x).waitsOn h := by
  unfold State.raiseUnlessFaulted
  split
  · exact State.waitsOn_of_held hheld
  · exact nofun

theorem engineStep_waitsOn (hstep : engineStep s = .next t) : t.waitsOn h := by
  rcases engineStep_cases s with ⟨-, hsame⟩ | ⟨-, -, x, hfault⟩ | ⟨-, j, rest, hist, out, -, -, hretired⟩
  · cases hstep.symm.trans (hsame s.storage)
    exact fun _ => hheld
  · cases hstep.symm.trans hfault
    exact nofun
  · cases hstep.symm.trans (hretired s.storage)
    exact fun _ => hheld

theorem State.waitsOn_regRead (offset : BitVec 8) (width : Nat) : (s.regRead offset width).waitsOn h := by
  unfold State.regRead
  split
  · exact State.waitsOn_raiseUnlessFaulted (s := { s with hostWord := none }) hheld _
  · split
    · exact fun _ => hheld
    · exact State.waitsOn_raiseUnlessFaulted (s := { s with hostWord := none }) hheld _

theorem State.waitsOn_consumerRead (off n : Nat) : (s.consumerRead off n).waitsOn h := by
  unfold State.consumerRead
  dsimp only
  split
  · exact fun _ => hheld
  · split
    · exact nofun
    · split
      · exact nofun
      · split
        · exact nofun
        · exact fun _ => hheld

theorem regWrite_waitsOn {offset : BitVec 8} {width : Nat} {value : Word}
    (hzero : offset = 0 → s.lifeState = .faulted) (hstep : regWrite offset width value s = .next t) :
    t.waitsOn h := by
  unfold regWrite at hstep
  split at hstep
  · cases hstep
    exact State.waitsOn_raiseUnlessFaulted hheld _
  · split at hstep
    case h_1 hoffset =>
      rw [issueWord, if_pos (hzero (BitVec.eq_of_toNat_eq hoffset))] at hstep
      cases hstep
      exact fun _ => hheld
    case h_6 =>
      cases hstep
      exact State.waitsOn_raiseUnlessFaulted hheld _
    all_goals
      cases hstep
      exact fun _ => hheld

/-- The control path lets the held command go on, or it still waits. -/
theorem controlStep_waitsOn_or_resumes {idle : State → Result} {rest : List Move}
    (hidle : ∀ {u v : State}, u.held = some h → idle u = .next v → v.waitsOn h)
    (hstep : controlStep idle (s.afterMove rest) = .next t) :
    t.waitsOn h ∨ (s.lifeState ≠ .faulted ∧ ∃ rest, resumeHeld h (s.afterMove rest).release = .next t) := by
  have hmoved : (s.afterMove rest).held = some h := hheld
  by_cases hl : s.lifeState = .faulted
  · have hwork : (s.afterMove rest).controlWork = .nothing := if_pos hl
    rw [controlStep, hwork] at hstep
    exact .inl (hidle hmoved hstep)
  · have hwork : (s.afterMove rest).controlWork = .held h := by simp [State.controlWork, hl, hheld]
    rw [controlStep, hwork] at hstep
    dsimp only at hstep
    split at hstep
    · exact .inr ⟨hl, rest, hstep⟩
    · exact .inl (hidle hmoved hstep)

/-- Whatever agent moves, a held command still waits, the block has left READY, or the command goes on. -/
theorem step_waitsOn_or_resumes (hstep : step s = .next t) :
    t.waitsOn h ∨ (s.lifeState ≠ .faulted ∧ ∃ rest, resumeHeld h (s.afterMove rest).release = .next t) := by
  have hmoved (rest : List Move) : (s.afterMove rest).held = some h := hheld
  cases hin : s.inputs with
  | nil =>
    rw [step_idle hin] at hstep
    exact controlStep_waitsOn_or_resumes (rest := s.inputs) hheld engineStep_waitsOn hstep
  | cons move rest =>
    cases move with
    | regWrite offset width value =>
      cases hw : s.writeWaits offset with
      | true =>
        rw [step_waits hin hw] at hstep
        exact controlStep_waitsOn_or_resumes (rest := s.inputs) hheld engineStep_waitsOn hstep
      | false =>
        rw [step_regWrite hin hw] at hstep
        refine .inl (regWrite_waitsOn (hmoved rest) (fun hzero => ?_) hstep)
        subst hzero
        by_contra hl
        obtain ⟨hfree, -⟩ := State.controlPathFree_of_nothing (State.controlWork_of_not_writeWaits hw) hl
        cases hheld.symm.trans hfree
    | regRead offset width =>
      cases hstep.symm.trans (step_regRead hin)
      exact .inl (State.waitsOn_regRead (hmoved rest) _ _)
    | consumerRead off n =>
      cases hstep.symm.trans (step_consumerRead hin)
      exact .inl (State.waitsOn_consumerRead (hmoved rest) _ _)
    | engine =>
      rw [step_engine hin] at hstep
      exact .inl (engineStep_waitsOn (hmoved rest) hstep)
    | control =>
      rw [step_control hin] at hstep
      refine controlStep_waitsOn_or_resumes hheld ?_ hstep
      rintro u v hu ⟨⟩
      exact State.waitsOn_of_held hu
    | powerOn =>
      cases hstep.symm.trans (step_powerOn hin)
      exact .inl nofun

end

/-! ### The offsets APPEND returns -/

/-- In READY with no command held, RES0 is aligned (20_memory.md R89). -/
def State.returnsAligned (t : State) : Prop := t.lifeState = .ready → t.held = none → t.res0.toNat % 8 = 0

theorem State.returnsAligned_raise (s : State) (op : BitVec 8) (x : Trap) : (s.raise op x).returnsAligned := nofun

/-- APPEND checks that the tail is aligned; it lies within SIZE_BYTES, so that RES0 is its offset. -/
theorem appendTail_ends_aligned {u : State} {wlen : Int} (hlen0 : 0 ≤ u.writeLen.toInt) (hwlen : 0 ≤ wlen)
    (hsize : (u.sizeBytes.toNat : Int) ≤ posMax) : (appendTail wlen u).Ends State.returnsAligned := by
  refine .guard u.returnsAligned_raise fun hcap => .guard u.returnsAligned_raise fun halign => ?_
  split
  · exact fun op => u.returnsAligned_raise op _
  · intro _ _
    have hmax : u.windowEnd ≤ u.sizeBytes.toNat := u.samples_le_sizeBytes (by omega)
    have hmin : 0 ≤ u.windowEnd := u.samples_nonneg hlen0
    change (u.fitU32 .res0 u.windowEnd).toNat % 8 = 0
    rw [u.fitU32_eq .res0 hmin ((hmax.trans hsize).trans_lt (by decide)), BitVec.toNat_ofInt]
    omega

section
variable {s : State} (hb : s.windowBounds)
include hb

theorem appendCompacting_ends_aligned {wlen : Int} (hwlen : 0 ≤ wlen) :
    (appendCompacting wlen s).Ends State.returnsAligned := by
  obtain ⟨-, hcur0, hcurLen, -, -, hsize⟩ := hb
  have hlenMax := (toInt_bounds s.writeLen).2
  refine State.discardWindow_ends (fun _ => nofun) (appendTail_ends_aligned (hcur0.trans hcurLen) hwlen hsize)
    fun idx hidx => appendTail_ends_aligned ?_ hwlen hsize
  rw [State.dropSamples_writeLen, ofNat_toInt (by omega)]
  exact Int.natCast_nonneg _

theorem appendBody_ends_aligned : (appendBody s).Ends State.returnsAligned := by
  have ⟨_, hcur0, hcurLen, _, _, hsize⟩ := hb
  refine .guard s.returnsAligned_raise fun hwlen => ?_
  split
  · exact appendCompacting_ends_aligned hb (not_lt.mp hwlen)
  · exact appendTail_ends_aligned (hcur0.trans hcurLen) (not_lt.mp hwlen) hsize

end

/-- Settles O28: APPEND's own part, and what is left of it after the wait, which alone lifts its hold in READY. -/
theorem appendReturnsAlignedOffsets : Obligations.AppendReturnsAlignedOffsets := by
  refine ⟨fun s t ⟨hl, hread⟩ hinv _ hexec => ?_, fun s t wlen hinv hheld hstep hl hfree => ?_⟩
  · rw [exec_source rfl hl hread] at hexec
    exact (appendBody_ends_aligned (State.windowBounds_of_ready hinv hl)).of_close hexec
  · rcases step_waitsOn_or_resumes hheld hstep with hwaits | ⟨hnf, rest, hresumed⟩
    · cases (hwaits hl).symm.trans hfree
    · obtain ⟨hb, -, -, -, happend⟩ := hinv.resolve_left hnf
      have hends := appendCompacting_ends_aligned (s := (s.afterMove rest).release) hb (happend wlen hheld)
      exact hends.of_close hresumed hl hfree

/-! ### RAW -/

/-- In an outstanding read with no move from outside, a bound RAW source takes its turn (40_sample_buffer.md R182). -/
theorem step_raw {s : State} {total : Nat} {turn : SourceTurn} (h : s.answeringRead) (hin : s.inputs = [])
    (hagent : s.boundMedia.agent = .raw total)
    (hturn : State.rawTurn { s with freeTick := s.freeTick + 1 } total = turn) :
    step s = takeSourceTurn turn { s with freeTick := s.freeTick + 1 } := by
  obtain ⟨hl, hread, hheld⟩ := h
  have hwork : State.controlWork { s with freeTick := s.freeTick + 1 } = .source :=
    show s.controlWork = .source by simp [State.controlWork, hl, hread, hheld, hagent]
  have hraw : State.sourceTurn { s with freeTick := s.freeTick + 1 } = turn := by
    rw [← hturn, State.sourceTurn, show State.boundMedia { s with freeTick := s.freeTick + 1 } = s.boundMedia from rfl,
      hagent]
  rw [step_idle hin, controlStep, hwork, ← hraw]

theorem State.operand_eq (s : State) {v : Int} (lo : 0 ≤ v) (hi : v < 2 ^ 32) : s.operand v = BitVec.ofInt 32 v :=
  s.fitU32_eq .sourceOperand lo hi

section
variable {s : State} {total : Nat} {n : Int} (hn : n = max 0 (min s.rreqLen.toInt (total - s.rreqPos.toInt)))
include hn

theorem State.rawTurn_start (hphase : s.srcPhase = .start) (hlt : 0 < n) :
    s.rawTurn total = .issue .append (BitVec.ofInt 32 n) s.arg1 s.arg2 .appended := by
  have hmax := (toInt_bounds s.rreqLen).2
  rw [← s.operand_eq hlt.le (by omega), hn, State.rawTurn, hphase]
  exact if_pos (hn ▸ hlt)

theorem State.rawTurn_start_zero (hphase : s.srcPhase = .start) (hzero : n = 0) : s.rawTurn total = s.sayDone := by
  rw [State.rawTurn, hphase]
  exact if_neg (by omega)

theorem State.rawTurn_appended (hphase : s.srcPhase = .appended) (hpos0 : 0 ≤ s.rreqPos.toInt)
    (hpos : s.rreqPos.toInt * s.bytesPerSample < 2 ^ 32) (hlen : n * s.bytesPerSample < 2 ^ 32) :
    s.rawTurn total = .issue .scopy s.res0 (BitVec.ofInt 32 (s.rreqPos.toInt * s.bytesPerSample))
      (BitVec.ofInt 32 (n * s.bytesPerSample)) .copied := by
  have hn0 : 0 ≤ n := hn ▸ le_max_left _ _
  rw [← s.operand_eq (s.samples_nonneg hpos0) hpos, ← s.operand_eq (s.samples_nonneg hn0) hlen, hn, State.rawTurn,
    hphase]

end

theorem State.rawTurn_copied {s : State} (total : Nat) (hphase : s.srcPhase = .copied) :
    s.rawTurn total = s.sayDone := by
  rw [State.rawTurn, hphase]

/-- Settles O48: by RAW's turn in each of its phases. -/
theorem rawSourceAnswersAReadRequest : Obligations.RawSourceAnswersAReadRequest := by
  intro s total n hanswering hin hagent hn hpos0
  refine ⟨fun hphase hlt => ?_, fun hphase hzero => ?_, fun hphase hpos hlen => ?_, fun hphase => ?_⟩
  · exact step_raw hanswering hin hagent (State.rawTurn_start hn hphase hlt)
  · exact step_raw hanswering hin hagent (State.rawTurn_start_zero hn hphase hzero)
  · exact step_raw hanswering hin hagent (State.rawTurn_appended hn hphase hpos0 hpos hlen)
  · exact step_raw hanswering hin hagent (State.rawTurn_copied total hphase)

end Sys2Proof.Machine
end

section
/-! PROOF. Faults (60_exceptions.md R345, R350, R352): a command that faults has kept its context by then, and while
FAULTED a step reaches ARG0 to ARG3 and the outside world's part alone. -/

namespace Sys2Proof.Machine

/-! ### How far a command's part has come when it ends -/

/-- A command's part completes, or is held, in a state that meets `P`, and raises a fault only in one that meets `Q`. -/
def Exit.Meets (P Q : State → Prop) : Exit → Prop
  | .done t => P t
  | .trap u _ => Q u

/-- `u` is not FAULTED and has the context of `s`: IN_READ, QUEUE, V_HIST, the read request, SOURCE_ID and SIZE_BYTES;
NEW is as in `s`, or -1 once a discontinuous GET has flushed the window (40_sample_buffer.md R180). -/
def State.keepsContext (s u : State) : Prop :=
  u.lifeState ≠ .faulted ∧ u.inRead = s.inRead ∧ u.queue = s.queue ∧ u.vHist = s.vHist ∧ u.rreqPos = s.rreqPos
  ∧ u.rreqLen = s.rreqLen ∧ u.rreqSeek = s.rreqSeek ∧ u.sourceId = s.sourceId ∧ u.sizeBytes = s.sizeBytes
  ∧ u.nextExpected.toInt ∈ [s.nextExpected.toInt, -1]

theorem State.keepsContext_self {s : State} (hl : s.lifeState ≠ .faulted) : s.keepsContext s :=
  ⟨hl, rfl, rfl, rfl, rfl, rfl, rfl, rfl, rfl, List.mem_cons_self⟩

theorem State.keepsContext_flushCursors {s : State} (hl : s.lifeState ≠ .faulted) : s.keepsContext s.flushCursors :=
  ⟨hl, rfl, rfl, rfl, rfl, rfl, rfl, rfl, rfl, List.mem_cons_of_mem _ List.mem_cons_self⟩

section
variable {P Q : State → Prop}

/-- A check of a command: it faults, or the command goes on. -/
theorem Exit.Meets.guard {c : Prop} [Decidable c] {u : State} {x : Trap} {e : Exit} (hu : Q u)
    (he : e.Meets P Q) : (if c then .trap u x else e).Meets P Q := by
  split
  · exact hu
  · exact he

theorem Exit.Meets.andThen {P' : State → Prop} {e : Exit} {k : State → Exit} (he : e.Meets P' Q)
    (hk : ∀ t, P' t → (k t).Meets P Q) : (e.andThen k).Meets P Q := by
  cases e with
  | done t => exact hk t he
  | trap u x => exact he

theorem State.holdUntil_meets {s : State} {ready : Bool} {h : Held} {rest : State → Exit}
    (hhold : P { s with held := some h }) (hrest : (rest s).Meets P Q) : (s.holdUntil ready h rest).Meets P Q := by
  rcases s.holdUntil_cases ready h rest with ⟨-, he⟩ | ⟨-, he⟩
  · exact he ▸ hrest
  · exact he ▸ hhold

theorem State.discardWindow_meets {s : State} {p : Int} {h : Held} {rest : State → Exit}
    (hhold : P { s with held := some h }) (hrest : (rest s).Meets P Q)
    (hdrop : ∀ idx, (rest (s.dropSamples idx)).Meets P Q) : (s.discardWindow p h rest).Meets P Q := by
  rcases s.discardWindow_cases p h rest with ⟨-, he⟩ | ⟨-, -, he⟩ | ⟨-, -, he⟩
  · exact he ▸ hrest
  · exact he ▸ hhold
  · exact he ▸ hdrop _

theorem State.storeBytes_meets {s : State} {off : Nat} {bs : List Byte} (hfault : Q s)
    (hstore : P { s with storage := Memory.writeBytes s.storage off bs }) : (s.storeBytes off bs).Meets P Q := by
  rcases s.storeBytes_cases off bs with ⟨-, he⟩ | ⟨-, he⟩
  · exact he ▸ hstore
  · exact he ▸ hfault

end

/-! ### The commands that fault past a change of their own -/

/-- A command's part that faults only with the context of `s`, and does not complete in FAULTED. -/
abbrev Exit.FaultsInContext (s : State) : Exit → Prop := Exit.Meets (·.lifeState ≠ .faulted) s.keepsContext

/-- A part that changes nothing of the context of `s`, completed or not, and so can be followed by another. -/
abbrev Exit.StaysInContext (s : State) : Exit → Prop := Exit.Meets s.keepsContext s.keepsContext

theorem Exit.StaysInContext.faultsInContext {s : State} {e : Exit} (h : e.StaysInContext s) :
    e.FaultsInContext s := by
  cases e with
  | done t => exact h.1
  | trap u x => exact h

/-- GET's two paths fault with the window flushed, or with READ_CURSOR moved (40_sample_buffer.md R180, R185). -/
theorem getBody_faultsInContext {s : State} (hl : s.lifeState ≠ .faulted) : (getBody s).FaultsInContext s := by
  have hs := s.keepsContext_self hl
  refine .guard hs <| .guard hs <| .guard hs <| .guard hs <| .guard hs ?_
  dsimp only
  split
  · exact .guard (s.keepsContext_flushCursors hl) hl
  · unfold getContinuous
    dsimp only
    split
    · exact .guard hs hl
    · exact hl

section
variable {s t : State} (ht : s.keepsContext t)
include ht

/-- APPEND may fault after its compaction (40_sample_buffer.md R190, R195). -/
theorem appendTail_faultsInContext (wlen : Int) : (appendTail wlen t).FaultsInContext s := by
  refine .guard ht <| .guard ht ?_
  split
  · exact ht
  · exact ht.1

theorem hdecodeBlock_staysInContext (dst : Nat) : (hdecodeBlock dst t).StaysInContext s := by
  refine .guard ht <| .guard ht <| .guard ht <| .guard ht ?_
  split
  · exact ht
  · split
    · exact ht
    · exact (State.storeBytes_meets ht ht).andThen fun u hu => hu

theorem stageRaw_staysInContext (dst nb : Nat) : (stageRaw dst nb t).StaysInContext s := by
  unfold stageRaw
  split
  · exact ht
  · split
    · exact ht
    · exact State.storeBytes_meets ht ht

end

/-- A VSTAGE that faults in a later block keeps the blocks before it (41_vadpcm.md R245). -/
theorem stageBlocks_staysInContext {s t : State} (ht : s.keepsContext t) (dst n b : Nat) :
    (stageBlocks dst n b t).StaysInContext s := by
  induction n generalizing b t with
  | zero => exact ht
  | succ n ih => exact (hdecodeBlock_staysInContext ht _).andThen fun u hu => ih hu (b + 1)

/-- An HBUILD that faults in a later context keeps the tables before it (42_huffman.md R280). -/
theorem buildContexts_staysInContext {s t : State} (ht : s.keepsContext t) (ks : List Nat) :
    (buildContexts ks t).StaysInContext s := by
  induction ks generalizing t with
  | nil => exact ht
  | cons k rest ih =>
    unfold buildContexts
    split
    · exact ht
    · exact ih ht

theorem vstageBody_faultsInContext {s : State} (hl : s.lifeState ≠ .faulted) :
    (vstageBody s).FaultsInContext s := by
  have hs := s.keepsContext_self hl
  unfold vstageBody
  dsimp only
  split
  · exact hs
  · refine Exit.Meets.andThen (P' := s.keepsContext) ?_ fun u hu => hu.1
    split
    · exact stageBlocks_staysInContext hs _ _ _
    · exact stageRaw_staysInContext hs _ _

/-! ### The commands that fault before any change -/

section
variable {s : State} (hl : s.lifeState ≠ .faulted)
include hl

theorem scopyBody_faultsInContext : (scopyBody s).FaultsInContext s := by
  have hs := s.keepsContext_self hl
  refine .guard hs <| .guard hs ?_
  split
  · exact hs
  · split
    · exact hs
    · exact State.storeBytes_meets hs hl

theorem vopenBody_faultsInContext : (vopenBody s).FaultsInContext s := by
  have hs := s.keepsContext_self hl
  unfold vopenBody
  split
  · exact hs
  · split
    · exact hs
    · split
      · exact hs
      · exact State.holdUntil_meets hl hl

theorem vseekFinish_faultsInContext (offset : Int) : (vseekFinish offset s).FaultsInContext s := by
  have hs := s.keepsContext_self hl
  unfold vseekFinish
  split
  · exact hl
  · split
    · exact hs
    · exact hs
    · refine .guard hs ?_
      unfold restoreSkipEntry
      dsimp only
      split
      · exact hs
      · exact hs
      · exact hl

theorem vjobBody_faultsInContext : (vjobBody s).FaultsInContext s := by
  have hs := s.keepsContext_self hl
  refine .guard hs <| .guard hs <| .guard hs <| .guard hs ?_
  dsimp only
  split
  · exact hs
  · split
    · exact hs
    · exact State.holdUntil_meets hl hl

end

/-! ### Every command -/

theorem bodyOf_faultsInContext (i : Instr) {s : State} (hl : s.lifeState ≠ .faulted) :
    (bodyOf i s).FaultsInContext s := by
  have hs := s.keepsContext_self hl
  cases i with
  | init => exact .guard hs <| .guard hs <| .guard hs <| .guard hs <| nofun
  | close => exact State.holdUntil_meets hl nofun
  | setWidth => exact .guard hs <| .guard hs hl
  | setSource => exact .guard hs <| .guard hs <| .guard hs <| State.holdUntil_meets hl hl
  | get => exact getBody_faultsInContext hl
  | discard => exact .guard hs <| State.discardWindow_meets hl hl fun _ => hl
  | flush => exact hl
  | drain => exact State.holdUntil_meets hl hl
  | append =>
    have htail := appendTail_faultsInContext hs
    refine .guard hs ?_
    split
    · exact State.discardWindow_meets hl (htail _) fun idx => appendTail_faultsInContext (t := s.dropSamples idx) hs _
    · exact htail _
  | undo => exact .guard hs <| .guard hs hl
  | readDone => exact hl
  | scopy => exact scopyBody_faultsInContext hl
  | vopen => exact vopenBody_faultsInContext hl
  | vseek =>
    exact .guard hs <| .guard hs <| State.holdUntil_meets hl (vseekFinish_faultsInContext hl _)
  | vstage => exact vstageBody_faultsInContext hl
  | vjob => exact vjobBody_faultsInContext hl
  | hbuild =>
    refine .guard hs <| .guard hs ?_
    exact (buildContexts_staysInContext (t := { s with hBuilt := false }) hs _).andThen fun u hu => hu.1
  | hdecode => exact (hdecodeBlock_staysInContext hs _).faultsInContext

/-- A command that faults enters FAULTED with its own opcode, from a state that has kept its context. -/
theorem exec_enters_faulted {i : Instr} {s t : State} (hl : s.lifeState ≠ .faulted) (h : exec i s = .next t)
    (hf : t.lifeState = .faulted) : ∃ u x, s.keepsContext u ∧ t = u.raise (opcode i) x := by
  rw [exec_eq_issue] at h
  rcases issue_cases i (bodyOf i) s with ⟨hfaulted, -⟩ | ⟨-, x, he⟩ | ⟨-, -, -, he⟩
  · exact absurd hfaulted hl
  · rw [he] at h
    cases h
    exact ⟨s, x, s.keepsContext_self hl, rfl⟩
  · have hbody := bodyOf_faultsInContext i hl
    rw [he] at h
    rcases Exit.close_eq_next h with hdone | ⟨u, x, htrap, rfl⟩
    · rw [hdone] at hbody
      exact absurd hf hbody
    · rw [htrap] at hbody
      exact ⟨u, x, hbody, rfl⟩

/-- Settles O6: fault entry records the opcode, ends the command, and writes nothing of the context. -/
theorem faultingCommandKeepsItsContext : Obligations.FaultingCommandKeepsItsContext := by
  intro i s t hl h hf
  obtain ⟨u, x, ⟨-, hcontext⟩, rfl⟩ := exec_enters_faulted hl h hf
  exact ⟨rfl, rfl, rfl, hcontext⟩

/-! ### While FAULTED -/

/-- `t` is `s` but for ARG0 to ARG3 and the outside world's part: its moves, what its reads returned, and the free-value
counter. -/
def State.sameBlock (s t : State) : Prop :=
  t = { s with
    arg0 := t.arg0
    arg1 := t.arg1
    arg2 := t.arg2
    arg3 := t.arg3
    inputs := t.inputs
    hostWord := t.hostWord
    hostBytes := t.hostBytes
    freeTick := t.freeTick }

section
variable {s : State} (hl : s.lifeState = .faulted)
include hl

/-- While FAULTED the control path has no work of its own (60_exceptions.md R350). -/
theorem controlStep_faulted (idle : State → Result) : controlStep idle s = idle s := by
  rw [controlStep, State.controlWork, if_pos hl]

theorem State.raiseUnlessFaulted_faulted (x : Trap) : s.raiseUnlessFaulted x = s := if_pos hl

theorem State.regRead_faulted (offset : BitVec 8) (width : Nat) :
    ∃ v, s.regRead offset width = { s with hostWord := v } := by
  unfold State.regRead
  split
  · exact ⟨none, State.raiseUnlessFaulted_faulted (s := { s with hostWord := none }) hl _⟩
  · split
    · exact ⟨_, rfl⟩
    · exact ⟨none, State.raiseUnlessFaulted_faulted (s := { s with hostWord := none }) hl _⟩

theorem State.consumerRead_faulted (off n : Nat) : s.consumerRead off n = { s with hostBytes := none } := if_pos hl

/-- While FAULTED a REG write stores an operand or does nothing. -/
theorem regWrite_faulted {offset : BitVec 8} {width : Nat} {value : Word} {t : State}
    (h : regWrite offset width value s = .next t) : s.sameBlock t := by
  unfold regWrite at h
  simp only [State.raiseUnlessFaulted_faulted hl, issueWord_faulted value hl] at h
  split at h
  · cases h
    rfl
  · split at h <;> (cases h; rfl)

/-- A step while FAULTED, but for power-on reset, changes no register of the block but ARG0 to ARG3. -/
theorem step_faulted {t : State} (h : step s = .next t) (hon : ∀ rest, s.inputs ≠ .powerOn :: rest) :
    s.sameBlock t := by
  have hl' : ∀ moves, (s.afterMove moves).lifeState = .faulted := fun _ => hl
  cases hin : s.inputs with
  | nil =>
    rw [step_idle hin, controlStep_faulted (hl' s.inputs), engineStep_of_faulted (hl' s.inputs)] at h
    cases h
    rfl
  | cons move rest =>
    cases move with
    | regWrite offset width value =>
      rw [step_regWrite hin (s.writeWaits_of_faulted hl offset)] at h
      exact regWrite_faulted (hl' rest) h
    | regRead offset width =>
      obtain ⟨v, hread⟩ := State.regRead_faulted (hl' rest) offset width
      rw [step_regRead hin, hread] at h
      cases h
      rfl
    | consumerRead off n =>
      rw [step_consumerRead hin, State.consumerRead_faulted (hl' rest)] at h
      cases h
      rfl
    | engine =>
      rw [step_engine hin, engineStep_of_faulted (hl' rest)] at h
      cases h
      rfl
    | control =>
      rw [step_control hin, controlStep_faulted (hl' rest)] at h
      cases h
      rfl
    | powerOn => exact absurd hin (hon rest)

end

/-- Settles O7: no write waits while FAULTED, so each is made, and no agent's move reaches the block. -/
theorem faultedStateIsSticky : Obligations.FaultedStateIsSticky := by
  intro s hl
  have hgo := State.writeWaits_of_faulted hl
  refine ⟨fun w rest hmove => ?_, fun v rest hmove => step_regWrite hmove (hgo _),
    fun v rest hmove => step_regWrite hmove (hgo _), fun v rest hmove => step_regWrite hmove (hgo _),
    fun v rest hmove => step_regWrite hmove (hgo _), fun o v rest hmove halign hvalue => ?_,
    fun t h hon => step_faulted hl h hon⟩
  · exact (step_command hmove (hgo 0)).trans (issueWord_faulted (s := s.afterMove rest) w hl)
  · exact (step_regRead hmove).trans (congrArg _ (State.regRead_readable (s := s.afterMove rest) halign hvalue))

end Sys2Proof.Machine
end
